-- ==== Sys2Proof/Word.lean ====
section
/-!
DEFINITION. The words and the enumerations of the core: bytes, 16-bit readings, the 12-bit event word
(30_encoding.md R101), and the named values of 00_scope.md R12.
-/

namespace Sys2Proof

/-- A serial byte, and one location of the frame buffer (20_memory.md R60). -/
abbrev Byte := BitVec 8

/-- A raw reading, a history entry or an average: 16 bits, unsigned (10_state.md R26, R27, R29). -/
abbrev Reading := BitVec 16

/-- A BCD digit (10_state.md R35). -/
abbrev Bcd := BitVec 4

/-- The event word `ev[11:0]`: `kind = ev[11:8]`, `data = ev[7:0]` (30_encoding.md R101). -/
abbrev EventWord := BitVec 12

/-- A selectable channel, which is also a button line (00_scope.md R12, 10_state.md R34). -/
inductive Chan where
  | A
  | B
deriving DecidableEq, Repr

/-- The states of the debounce machine (43_channel_selector.md R180). The source's argument of
`Debouncing` is a variable of its own, `deb_cand` (10_state.md R32). -/
inductive DebState where
  | idle
  | debouncing
deriving DecidableEq, Repr

/-- The threshold decision, `Safe` or `Unsafe` (42_threshold_indicator.md R170). -/
inductive IndicatorState where
  | isSafe
  | isUnsafe
deriving DecidableEq, Repr

/-- A measurement channel, numbered 1 to 3 (00_scope.md R13). -/
inductive MeasChannel where
  | ch1
  | ch2
  | ch3
deriving DecidableEq, Repr

end Sys2Proof
end

