-- ==== Sys2Proof/Syntax.lean ====
section
/-!
DEFINITION. The operation set (30_encoding.md R100): eight events, one constructor for each row of
spec/opcode_table.json, and the agent that issues each.
-/

namespace Sys2Proof

/-- The eight events (00_scope.md R8, 30_encoding.md R100). A step of the core is exactly one of them. -/
inductive Instr where
  /-- `RST`: reset (70_reset_and_hazards.md R280). -/
  | rst
  /-- `RXB b`: serial byte received (40_frame_receiver.md R120). -/
  | rxb (b : Byte)
  /-- `BTNA`: edge on button line A (43_channel_selector.md R181). -/
  | btna
  /-- `BTNB`: edge on button line B (43_channel_selector.md R182). -/
  | btnb
  /-- `DBT`: the one-shot debounce timer fires (43_channel_selector.md R184, R185). -/
  | dbt
  /-- `MUXT`: periodic multiplex tick (44_display.md R210). -/
  | muxt
  /-- `FGF`: foreground step 1, consume "frame ready" (45_foreground.md R228). -/
  | fgf
  /-- `FGS`: foreground step 2, consume "selection pending" and refresh (45_foreground.md R230). -/
  | fgs
deriving DecidableEq, Repr

/-- Who issues events: the five agents of 00_scope.md R9, and the reset line (30_encoding.md R100). -/
inductive Agent where
  | resetLine
  | serial
  | buttonEdge
  | debounceTimer
  | multiplexTimer
  | foreground
deriving DecidableEq, Repr

/-- The agent of each event (30_encoding.md R100, 60_exceptions.md R249). -/
def Instr.agent : Instr → Agent
  | .rst => .resetLine
  | .rxb _ => .serial
  | .btna => .buttonEdge
  | .btnb => .buttonEdge
  | .dbt => .debounceTimer
  | .muxt => .multiplexTimer
  | .fgf => .foreground
  | .fgs => .foreground

/-- The two kinds of execution context (60_exceptions.md R257). -/
inductive Context where
  | interrupt
  | foreground
deriving DecidableEq, Repr

/-- The context an agent runs in; the reset line has none (60_exceptions.md R257). -/
def Agent.context : Agent → Option Context
  | .resetLine => none
  | .serial => some .interrupt
  | .buttonEdge => some .interrupt
  | .debounceTimer => some .interrupt
  | .multiplexTimer => some .interrupt
  | .foreground => some .foreground

end Sys2Proof
end

