-- ==== Sys2Proof/Config.lean ====
section
/-!
DEFINITION. The parameters: those the source fixes (00_scope.md R6), and those it leaves open (00_scope.md R7),
of which the spec decides two and leaves the others open. An open one is an opaque constant, of which nothing
can be proved but what its type says. What the environment delivers, and when, is such a constant too.
-/

namespace Sys2Proof.Config

/-- `FRAME_LEN` (R6): bytes in a frame and in the frame buffer. -/
abbrev frameLen : Nat := 32

/-- `START` (R6): the value required of frame byte 0. -/
abbrev startMarker : Byte := 0x42#8

/-- Index of the start marker (30_encoding.md R91). -/
abbrev startPos : Nat := 0

/-- `SENT_POS` (R6): index of the frame-complete sentinel. -/
abbrev sentPos : Nat := 31

/-- How many bytes the checksum sums: `SUM_FIRST = 0` to `SUM_LAST = 29` (R6). -/
abbrev sumLen : Nat := 30

/-- `CK_HI` (R6; 90_conflicts.md C1). DESIGN CHOICE of the spec, D2; unsafe; assumption log 16. -/
abbrev ckHi : Nat := 29

/-- `CK_LO` (R6; 90_conflicts.md C1). DESIGN CHOICE of the spec, D2; unsafe; assumption log 16. -/
abbrev ckLo : Nat := 30

/-- Index of the high byte of a channel's reading: `CH1_HI`, `CH2_HI`, `CH3_HI` (R6). -/
abbrev chHi : MeasChannel → Nat
  | .ch1 => 10
  | .ch2 => 12
  | .ch3 => 14

/-- Index of the low byte of a channel's reading: `CH1_LO`, `CH2_LO`, `CH3_LO` (R6). -/
abbrev chLo : MeasChannel → Nat
  | .ch1 => 11
  | .ch2 => 13
  | .ch3 => 15

/-- `NCH` (R6): measurement channels. -/
abbrev nch : Nat := 3

/-- `N` (R6): depth of each history ring. -/
abbrev ringDepth : Nat := 4

/-- `CLAMP_MAX` (R6): the largest displayable value. -/
abbrev clampMax : Nat := 99

/-- `THRESH` (R6): `Unsafe` when the average is above it. -/
abbrev thresh : Nat := 50

/-- `NDIGITS` (R6): digit positions of the display. -/
abbrev ndigits : Nat := 2

/-- `NSEL` (R6): selectable channels. -/
abbrev nsel : Nat := 2

/-- `SEL_A_CH` (R7): the measurement channel that `Channel-A` selects.
DESIGN CHOICE of the spec, D8; unsafe if a board differs; assumption log 10. -/
def selACh : MeasChannel := .ch2

/-- `SEL_B_CH` (R7): the measurement channel that `Channel-B` selects.
DESIGN CHOICE of the spec, D8; unsafe if a board differs; assumption log 10. -/
def selBCh : MeasChannel := .ch3

/-- How many segment lines there are beyond four. OPEN (R7, D15): nothing is known of it. -/
opaque segExtra : Nat

/-- `SEG_W` (R7): the number of segment lines, at least four. -/
abbrev segW : Nat := 4 + segExtra

/-- `SEG_LUT` (R7, 44_display.md R213): the segment pattern of a BCD digit, an excluded table. OPEN (D15): an
uninterpreted function, not even assumed to give different digits different patterns. Safe; assumption log 11. -/
opaque segLut : Bcd → BitVec segW

/-- The period of the multiplex tick less one time unit. OPEN (R7, D19): no rule reads it. -/
opaque tMuxPred : Nat

/-- The delay of the debounce timer less one time unit. OPEN (R7, D19): no rule reads it. -/
opaque tDebPred : Nat

/-- `T_MUX` (R7): a positive duration; the model has no time (70_reset_and_hazards.md R300; assumption log 12). -/
abbrev tMux : Nat := tMuxPred + 1

/-- `T_DEB` (R7): a positive duration; the model has no time (assumption log 12). -/
abbrev tDeb : Nat := tDebPred + 1

/-- `BAUD` (R7): the serial rate, fixed outside the core; read by nothing. -/
abbrev baud : Nat := 9600

/-- The environment's events, in the order in which the core comes to a step with nothing scheduled: at the `n`-th such
step an interrupt or a reset is due, or none is. A FREE VALUE with no body, so no schedule is fixed and none is fair
unless a claim takes that as a premise (20_memory.md R75, 45_foreground.md R234, 70_reset_and_hazards.md R299).
DESIGN CHOICE, safe; assumption log 29. -/
opaque arrival : Nat → Option Instr

end Sys2Proof.Config
end

