-- ==== Sys2Proof/WellFormed.lean ====
section
/-!
DEFINITION. The checks on what comes from outside: the opcode table with its match and mask, the legality of an
event word (30_encoding.md R101, R102), the range of an operand, and the constraint on the open parameters.
-/

namespace Sys2Proof

/-- The two formats of 30_encoding.md R101. -/
inductive Format where
  /-- No operand: `data` must be zero. -/
  | ev0
  /-- `data` is an 8-bit operand. -/
  | ev8
deriving DecidableEq, Repr

/-- A row of the table of 30_encoding.md R101. -/
structure OpcodeRow where
  mnemonic : String
  format : Format
  matchBits : EventWord
  mask : EventWord
deriving DecidableEq, Repr

/-- The table of 30_encoding.md R101, in its order. -/
def opcodeTable : List OpcodeRow :=
  [⟨"RST", .ev0, 0x000#12, 0xFFF#12⟩, ⟨"RXB", .ev8, 0x100#12, 0xF00#12⟩,
   ⟨"BTNA", .ev0, 0x200#12, 0xFFF#12⟩, ⟨"BTNB", .ev0, 0x300#12, 0xFFF#12⟩,
   ⟨"DBT", .ev0, 0x400#12, 0xFFF#12⟩, ⟨"MUXT", .ev0, 0x500#12, 0xFFF#12⟩,
   ⟨"FGF", .ev0, 0x600#12, 0xFFF#12⟩, ⟨"FGS", .ev0, 0x700#12, 0xFFF#12⟩]

/-- A word spells a row's event when it agrees with the row's match bits under the row's mask. -/
def OpcodeRow.spells (r : OpcodeRow) (w : EventWord) : Bool := w &&& r.mask == r.matchBits

/-- A word is legal when some row's event is spelled by it; every other word is reserved (30_encoding.md R102). -/
def legalWord (w : EventWord) : Bool := opcodeTable.any (fun r => r.spells w)

/-- Two rows overlap when one word can spell both. -/
def OpcodeRow.overlaps (r q : OpcodeRow) : Bool := r.matchBits &&& q.mask == q.matchBits &&& r.mask

/-- The mnemonic of an event, as spec/opcode_table.json spells it. -/
def Instr.mnemonic : Instr → String
  | .rst => "RST"
  | .rxb _ => "RXB"
  | .btna => "BTNA"
  | .btnb => "BTNB"
  | .dbt => "DBT"
  | .muxt => "MUXT"
  | .fgf => "FGF"
  | .fgs => "FGS"

/-- Well-formedness of an event: the one operand, the byte of `RXB`, is in 0 to 255 (30_encoding.md R105). It holds
of every `Instr`, since the operand's type has eight bits (Laws/Codec.lean, `wellFormed_all`). -/
def Instr.wellFormed : Instr → Bool
  | .rst => true
  | .rxb b => decide (b.toNat ≤ 255)
  | .btna => true
  | .btnb => true
  | .dbt => true
  | .muxt => true
  | .fgf => true
  | .fgs => true

/-- The constraint on the two selectable channels: distinct members of 1, 2, 3
(92_eei_decisions.md, open parameters). -/
def selChannelsWellFormed (a b : MeasChannel) : Bool := a != b

/-- The domain of `ENC` within its seven bits: 0 to 99 (44_display.md R200, R202). -/
def encDomain (v : BitVec 7) : Bool := decide (v.toNat ≤ Config.clampMax)

end Sys2Proof
end

