-- ==== Sys2Proof/Decode.lean ====
section
/-!
DEFINITION. The decoder of event words, total on all 4096 of them and refusing the reserved ones by name
(30_encoding.md R101, R102), and the encoder.
-/

namespace Sys2Proof

/-- Why a word spells no event (30_encoding.md R102). Safe: the word is refused, never taken as a no-op. -/
inductive DecodeError where
  /-- `kind` is 0x8 to 0xF. -/
  | reservedKind (kind : BitVec 4)
  /-- `kind` is that of an event without operand and `data` is not zero. -/
  | nonzeroData (kind : BitVec 4) (data : Byte)
deriving DecidableEq, Repr

/-- `kind = ev[11:8]` (30_encoding.md R101). -/
def eventKind (w : EventWord) : BitVec 4 := w.extractLsb' 8 4

/-- `data = ev[7:0]` (30_encoding.md R101). -/
def eventData (w : EventWord) : Byte := w.extractLsb' 0 8

/-- Format `EV0`: the event, if `data` is zero (30_encoding.md R101, R102). -/
def decodeEv0 (i : Instr) (w : EventWord) : Except DecodeError Instr :=
  if eventData w = 0#8 then .ok i else .error (.nonzeroData (eventKind w) (eventData w))

/-- The decoder (30_encoding.md R101, R102). -/
def decode (w : EventWord) : Except DecodeError Instr :=
  match (eventKind w).toNat with
  | 0 => decodeEv0 .rst w
  | 1 => .ok (.rxb (eventData w))
  | 2 => decodeEv0 .btna w
  | 3 => decodeEv0 .btnb w
  | 4 => decodeEv0 .dbt w
  | 5 => decodeEv0 .muxt w
  | 6 => decodeEv0 .fgf w
  | 7 => decodeEv0 .fgs w
  | _ => .error (.reservedKind (eventKind w))

/-- The event word with a given kind and data, `ev = (kind, data)` (30_encoding.md R101). -/
def eventWord (kind : BitVec 4) (data : Byte) : EventWord := kind ++ data

/-- The encoder (30_encoding.md R101). -/
def encode : Instr → EventWord
  | .rst => eventWord 0x0#4 0x00#8
  | .rxb b => eventWord 0x1#4 b
  | .btna => eventWord 0x2#4 0x00#8
  | .btnb => eventWord 0x3#4 0x00#8
  | .dbt => eventWord 0x4#4 0x00#8
  | .muxt => eventWord 0x5#4 0x00#8
  | .fgf => eventWord 0x6#4 0x00#8
  | .fgs => eventWord 0x7#4 0x00#8

/-- The bits of an instruction given as a number of `nbits` bits. -/
def tableBits (nbits w : Nat) : Nat := w % 2 ^ nbits

/-- What the decoder reads from an instruction whose bits are `w`. An event word has twelve bits; a number that needs
more spells no event. DESIGN CHOICE, safe; assumption log 6. -/
def decodeTableWord (nbits w : Nat) : Option Instr :=
  if tableBits nbits w < 2 ^ 12 then (decode (BitVec.ofNat 12 (tableBits nbits w))).toOption else none

end Sys2Proof
end

