-- ==== Sys2Proof/Machine/State.lean ====
section
/-!
DEFINITION. The state of the core: the 20 variables of 10_state.md R20, three fields of the model's own (the
events still to be delivered, the count of the environment's free choices and the output list of the last step), why a step is refused, and the state after reset
(10_state.md R51).
-/

namespace Sys2Proof.Machine

/-- One value for each measurement channel 1, 2, 3. -/
structure PerChannel (α : Type) where
  c1 : α
  c2 : α
  c3 : α
deriving DecidableEq, Repr

/-- A history ring: four entries of 16 bits (10_state.md R27). -/
abbrev Ring := Vector Reading 4

/-- The frame-buffer space `FB` (20_memory.md R60): address and byte, addresses strictly rising, no entry equal to
what an unlisted address reads as (`Memory.wf` in Machine/Ops.lean). DESIGN CHOICE; assumption log 8. -/
abbrev Memory := List Host.Cell

/-- An output change (00_scope.md R11, `emit`). The two indicator lines change as one (42_threshold_indicator.md R172;
assumption log 5). -/
inductive OutputChange where
  /-- `led_safe` and `led_unsafe` take these values. -/
  | leds (safeLine unsafeLine : Bool)
  /-- `digit_en` takes this value. -/
  | digitEn (v : BitVec 2)
  /-- `seg_bcd` takes this value. -/
  | segBcd (v : Bcd)
  /-- The pulse `deb_start`, with no register behind it (10_state.md R43). -/
  | debStart
deriving DecidableEq, Repr

/-- The whole state. The first 20 fields are the variables of 10_state.md R21 to R40, in the spec's order. -/
structure State where
  /-- `rx_buf[0..31]` (R21). -/
  rxBuf : Memory
  /-- `rx_pos` (R22). -/
  rxPos : BitVec 5
  /-- `frame_ready` (R26). -/
  frameReady : Bool
  /-- `frame_rd[1..3]` (R26). -/
  frameRd : PerChannel Reading
  /-- `hist[1..3][0..3]` (R27). -/
  hist : PerChannel Ring
  /-- `hist_pos[1..3]` (R28). -/
  histPos : PerChannel (BitVec 2)
  /-- `avg[1..3]` (R29). -/
  avg : PerChannel Reading
  /-- `deb_state` (R31). -/
  debState : DebState
  /-- `deb_cand` (R32). -/
  debCand : Chan
  /-- `sel_pending` (R33). -/
  selPending : Bool
  /-- `sel_event` (R33). -/
  selEvent : Chan
  /-- `selection` (R34). -/
  selection : Chan
  /-- `dig_tens` (R35). -/
  digTens : Bcd
  /-- `dig_units` (R35). -/
  digUnits : Bcd
  /-- `mux_idx` (R36). -/
  muxIdx : BitVec 1
  /-- `digit_en[1:0]` (R37). -/
  digitEn : BitVec 2
  /-- `seg_bcd[3:0]` (R38). -/
  segBcd : Bcd
  /-- `led_safe` (R39). -/
  ledSafe : Bool
  /-- `led_unsafe` (R39). -/
  ledUnsafe : Bool
  /-- `fg_phase` (R40). -/
  fgPhase : BitVec 1
  /-- The MODEL's own: the event words still to be delivered, the next one first. DESIGN CHOICE;
  assumption log 1. -/
  schedule : List EventWord
  /-- The MODEL's own: how many steps found nothing scheduled, which selects the environment's next choice
  (`Config.arrival`). DESIGN CHOICE; assumption log 29. -/
  arrivals : Nat
  /-- The MODEL's own: the output changes of the last step, in order (00_scope.md R8). DESIGN CHOICE, safe;
  assumption log 4. -/
  outputs : List OutputChange
deriving DecidableEq, Repr

/-- No behaviour of the core is a fault: every enabled event has a next state (60_exceptions.md R245;
93_implementation_defined.md, end of part 1). So there is no reason to fault, nobody raises one, and that is safe.
DEDUCED; assumption log 28. -/
inductive Fault : Type where
deriving DecidableEq, Repr

/-- Why a step is refused. -/
inductive Refusal where
  /-- An instruction with no meaning yet; no arm of exec raises it. Safe. -/
  | notModelled (mnemonic : String)
  /-- Raised by the fetch of a reserved event word whose kind is 0x8 to 0xF (30_encoding.md R102). Safe. -/
  | reservedKind (kind : BitVec 4)
  /-- Raised by the fetch of a reserved event word: an event without operand whose data is not zero
  (30_encoding.md R102). Safe. -/
  | nonzeroData (kind : BitVec 4) (data : Byte)
  /-- Raised by `FGF` at `fg_phase = 1`, where it is not enabled (30_encoding.md R103, 45_foreground.md R226). Safe. -/
  | fgfNotEnabled
  /-- Raised by `FGS` at `fg_phase = 0`, where it is not enabled (30_encoding.md R103, 45_foreground.md R226). Safe. -/
  | fgsNotEnabled
deriving DecidableEq, Repr

/-- The state after `RST` (10_state.md R51), with nothing scheduled, no choice made and no output list yet
(assumption logs 1, 4, 29).
DESIGN CHOICE of the spec for all but the rings and averages (D9, D12, D16, D24), unsafe; assumption log 9. -/
def State.reset : State where
  rxBuf := []
  rxPos := 0#5
  frameReady := false
  frameRd := ⟨0#16, 0#16, 0#16⟩
  hist := ⟨#v[0#16, 0#16, 0#16, 0#16], #v[0#16, 0#16, 0#16, 0#16], #v[0#16, 0#16, 0#16, 0#16]⟩
  histPos := ⟨0#2, 0#2, 0#2⟩
  avg := ⟨0#16, 0#16, 0#16⟩
  debState := .idle
  debCand := .A
  selPending := false
  selEvent := .A
  selection := .A
  digTens := 0#4
  digUnits := 0#4
  muxIdx := 0#1
  digitEn := 0#2
  segBcd := 0#4
  ledSafe := false
  ledUnsafe := false
  fgPhase := 0#1
  schedule := []
  arrivals := 0
  outputs := []

end Sys2Proof.Machine
end

