-- ==== Sys2Proof/Machine/Ops.lean ====
section
/-!
DEFINITION. The named operations over the frame buffer, the history rings, the per-channel registers and the output
registers. The core has no trap: nothing is saved, no mode changes and no vector is consulted when an interrupt is
taken, and nothing is restored when its handler returns (60_exceptions.md R245, R254, R255). Taking an interrupt is
running its event's step, so what every step has in common at its start, `beginStep`, is all there is of an entry, and
its end is the return.
-/

namespace Sys2Proof.Machine

/-! The frame buffer as a canonical list of cells (20_memory.md R60). -/

/-- What an unlisted byte of the frame buffer reads as: its value after reset (10_state.md R51).
DESIGN CHOICE of the spec, D16; unsafe; assumption log 8. -/
def fbUnlisted : Byte := 0x00#8

/-- `MemRead(FB, a, 1)` (00_scope.md R11). -/
def Memory.read : Memory → Nat → Byte
  | [], _ => fbUnlisted
  | (b, v) :: m, a => if b = a then v else Memory.read m a

/-- Put a listed byte at its place in the order. -/
def Memory.place : Memory → Nat → Byte → Memory
  | [], a, v => [(a, v)]
  | (b, u) :: m, a, v =>
    if a < b then (a, v) :: (b, u) :: m
    else if a = b then (a, v) :: m
    else (b, u) :: Memory.place m a v

/-- Take an address off the list. -/
def Memory.drop : Memory → Nat → Memory
  | [], _ => []
  | (b, u) :: m, a => if b = a then Memory.drop m a else (b, u) :: Memory.drop m a

/-- `MemWrite(FB, a, 1, v)` (00_scope.md R11), keeping the canonical form. -/
def Memory.write (m : Memory) (a : Nat) (v : Byte) : Memory :=
  if v = fbUnlisted then Memory.drop m a else Memory.place m a v

/-- The canonical form: addresses strictly rising and inside the space (20_memory.md R60, R63), no entry equal to what
an unlisted address reads as. -/
abbrev Memory.wf (m : Memory) : Prop :=
  m.Pairwise (fun x y => x.1 < y.1) ∧ ∀ c ∈ m, c.1 < Config.frameLen ∧ c.2 ≠ fbUnlisted

/-- `FB[a]` (00_scope.md R11). -/
def State.fb (s : State) (a : Nat) : Byte := Memory.read s.rxBuf a

/-- `FB[a] <- v` (00_scope.md R11). -/
def State.setFb (s : State) (a : Nat) (v : Byte) : State := { s with rxBuf := Memory.write s.rxBuf a v }

/-- `for i in 0..31: FB[i] <- 0` (40_frame_receiver.md R122): nothing is listed. -/
def State.clearFb (s : State) : State := { s with rxBuf := [] }

/-! Per-channel registers. -/

/-- The value of a channel. -/
def PerChannel.get {α : Type} (p : PerChannel α) : MeasChannel → α
  | .ch1 => p.c1
  | .ch2 => p.c2
  | .ch3 => p.c3

/-- The three values given by a function of the channel: `for c in 1, 2, 3` of 41_rolling_average.md R150. -/
def PerChannel.tabulate {α : Type} (f : MeasChannel → α) : PerChannel α := ⟨f .ch1, f .ch2, f .ch3⟩

/-! The history rings (20_memory.md R61, R64). -/

/-- `HIST[c][i]` of one ring: the index is two bits and cannot fall outside it (20_memory.md R63). -/
def ringRead (r : Ring) (i : BitVec 2) : Reading := r[i.toNat]'i.isLt

/-- `HIST[c][i] <- v` of one ring. -/
def ringWrite (r : Ring) (i : BitVec 2) (v : Reading) : Ring := r.set i.toNat v i.isLt

/-! Outputs (00_scope.md R11). -/

/-- The register behind an output change takes its value; a pulse has no register (10_state.md R43). -/
def OutputChange.drive (o : OutputChange) (s : State) : State :=
  match o with
  | .leds a b => { s with ledSafe := a, ledUnsafe := b }
  | .digitEn v => { s with digitEn := v }
  | .segBcd v => { s with segBcd := v }
  | .debStart => s

/-- `emit(port = v)`: "appends an output change to the step's output list and sets the output register of that name"
(00_scope.md R11). -/
def emit (o : OutputChange) (s : State) : State :=
  { OutputChange.drive o s with outputs := s.outputs ++ [o] }

/-- A step starts with an empty output list (00_scope.md R8). Entering a handler does nothing else
(60_exceptions.md R254). -/
def beginStep (s : State) : State := { s with outputs := [] }

end Sys2Proof.Machine
end

