-- ==== Sys2Proof/Machine/Average.lean ====
section
/-!
DEFINITION. The Rolling Average Store: `REC`, `AVG`, `CLAMP` (41_rolling_average.md).
-/

namespace Sys2Proof.Machine

/-- `AVG` of one ring (41_rolling_average.md R152): the sum is exact and only then divided (R153).
DESIGN CHOICE of the spec, D10; unsafe; assumption log 18. -/
def ringAverage (r : Ring) : Reading :=
  BitVec.ofNat 16
    (((ringRead r 0#2).toNat + (ringRead r 1#2).toNat + (ringRead r 2#2).toNat + (ringRead r 3#2).toNat) /
      Config.ringDepth)

/-- The ring of one channel after a reading is written at its cursor (41_rolling_average.md R151). -/
def recordedRing (r : PerChannel Reading) (s : State) (c : MeasChannel) : Ring :=
  ringWrite (s.hist.get c) (s.histPos.get c) (r.get c)

/-- `REC(r)`: record one validated frame (41_rolling_average.md R150). The average reads the new entry (R152). -/
def recordFrame (r : PerChannel Reading) (s : State) : State :=
  { s with
    hist := PerChannel.tabulate (recordedRing r s)
    histPos := PerChannel.tabulate (fun c => s.histPos.get c + 1#2)
    avg := PerChannel.tabulate (fun c => ringAverage (recordedRing r s c)) }

/-- A display value, 0 to 99: the range of `CLAMP` and the domain of `ENC` (44_display.md R202). -/
abbrev DisplayValue := Fin 100

/-- `CLAMP(a) = min(a, 99)` (41_rolling_average.md R154). -/
def clamp (a : Reading) : DisplayValue := ⟨min a.toNat Config.clampMax, by simp only [Config.clampMax]; omega⟩

end Sys2Proof.Machine
end

