-- ==== Sys2Proof/Machine/Indicator.lean ====
section
/-!
DEFINITION. The Threshold Indicator: `THR`, `IND` (42_threshold_indicator.md).
-/

namespace Sys2Proof.Machine

/-- `THR(a)`: `Unsafe` when the unclamped average is above 50 (42_threshold_indicator.md R170, R171). -/
def threshold (a : Reading) : IndicatorState := if Config.thresh < a.toNat then .isUnsafe else .isSafe

/-- `IND(s)`: drive both indicator lines, as one output change (42_threshold_indicator.md R172). DESIGN CHOICE of
the spec, D13; unsafe; assumption logs 5, 21. -/
def driveIndicator (i : IndicatorState) (s : State) : State :=
  match i with
  | .isSafe => emit (.leds true false) s
  | .isUnsafe => emit (.leds false true) s

end Sys2Proof.Machine
end

