-- ==== Sys2Proof/Machine/Operands.lean ====
section
/-!
DEFINITION. The operand forms: a 16-bit field assembled from two bytes (30_encoding.md R104), the readings and the
checksum field of a frame (30_encoding.md R91), the checksum input (40_frame_receiver.md R123), and the measurement
channel that a selection names (10_state.md R34). Every other operand is a register or the byte of `RXB` as it is
(30_encoding.md R105).
-/

namespace Sys2Proof.Machine

/-- `FIELD16(hi, lo)` (30_encoding.md R104): big-endian, zero-extended (20_memory.md R65). -/
def field16 (hi lo : Byte) : Reading := hi ++ lo

/-- The reading of one channel in the frame buffer (30_encoding.md R91, R104). -/
def channelField (s : State) (c : MeasChannel) : Reading :=
  field16 (s.fb (Config.chHi c)) (s.fb (Config.chLo c))

/-- The three readings in the frame buffer (40_frame_receiver.md R125). -/
def frameReadings (s : State) : PerChannel Reading := PerChannel.tabulate (channelField s)

/-- `SUM30()` (40_frame_receiver.md R123): computed exactly, held in 16 bits, where it always fits. -/
def sum30 (s : State) : BitVec 16 :=
  BitVec.ofNat 16 (((List.range Config.sumLen).map (fun i => (s.fb i).toNat)).sum)

/-- `CKVAL()` (40_frame_receiver.md R124). -/
def ckval (s : State) : BitVec 16 := field16 (s.fb Config.ckHi) (s.fb Config.ckLo)

/-- The measurement channel a selection names (10_state.md R34). -/
def selectedChannel : Chan → MeasChannel
  | .A => Config.selACh
  | .B => Config.selBCh

end Sys2Proof.Machine
end

