-- ==== Sys2Proof/Machine/Display.lean ====
section
/-!
DEFINITION. The Display Encoder and Multiplexer: `ENC`, `REFRESH`, `MUXT` (44_display.md).
-/

namespace Sys2Proof.Machine

/-- `ENC(v)`: the tens and the units digit (44_display.md R200). Its domain is 0 to 99 by type (R202;
assumption log 19). -/
def encodeBcd (v : DisplayValue) : Bcd × Bcd := (BitVec.ofNat 4 (v.val / 10), BitVec.ofNat 4 (v.val % 10))

/-- `ENC` on a 7-bit operand: refused outside the domain (44_display.md R202, 95_test_vectors.md V42). -/
def encodeBcd7 (v : BitVec 7) : Option (Bcd × Bcd) :=
  if h : v.toNat < 100 then some (encodeBcd ⟨v.toNat, h⟩) else none

/-- The correction of the double-dabble procedure, before the shift (44_display.md R201). -/
def dabbleCorrect (d : Bcd) : Bcd := if 5#4 ≤ d then d + 3#4 else d

/-- One iteration of the double-dabble procedure, with the next input bit (44_display.md R201). -/
def dabbleStep (p : Bcd × Bcd) (bit : Bool) : Bcd × Bcd :=
  let u := dabbleCorrect p.2
  let t := dabbleCorrect p.1
  (t.extractLsb' 0 3 ++ u.extractLsb' 3 1, u.extractLsb' 0 3 ++ BitVec.ofBool bit)

/-- `ENC_DD(v)`: the double-dabble procedure, bit 6 first (44_display.md R201). PRESUMED: the spec marks its steps as
general knowledge; the machine uses `encodeBcd`, to which it is equal on the domain by
`Obligations.DoubleDabbleComputesTheDigits`. -/
def encodeDoubleDabble (v : BitVec 7) : Bcd × Bcd :=
  [6, 5, 4, 3, 2, 1, 0].foldl (fun p i => dabbleStep p (v.getLsbD i)) (0#4, 0#4)

/-- The average of the selected channel, unclamped (44_display.md R205, 42_threshold_indicator.md R174). -/
def selectedAverage (s : State) : Reading := s.avg.get (selectedChannel s.selection)

/-- The two digits are written in the same step (44_display.md R205, R206). DESIGN CHOICE of the spec, D13; unsafe;
assumption log 21. -/
def writeDigits (d : Bcd × Bcd) (s : State) : State := { s with digTens := d.1, digUnits := d.2 }

/-- `REFRESH`: bring digits and indicator up to date (44_display.md R205). -/
def refresh (s : State) : State :=
  driveIndicator (threshold (selectedAverage s)) (writeDigits (encodeBcd (clamp (selectedAverage s))) s)

/-- The digit a position renders: index 0 the tens, index 1 the units (44_display.md R212). -/
def positionDigit (s : State) (idx : BitVec 1) : Bcd := if idx = 0#1 then s.digTens else s.digUnits

/-- The enable lines with only one position on: `digit_en[0]` is the tens position, `digit_en[1]` the units
(44_display.md R212). DESIGN CHOICE of the spec, D14; a renaming; assumption log 22. -/
def positionEnable (idx : BitVec 1) : BitVec 2 := if idx = 0#1 then 0b01#2 else 0b10#2

/-- Toggle the Active Digit Index (44_display.md R210, part 1). -/
def toggleIndex (s : State) : State := { s with muxIdx := 1#1 - s.muxIdx }

/-- Break before make: both positions off, the new pattern, only the new position on (44_display.md R210, parts 2 to 4;
R211). -/
def renderPosition (s : State) : State :=
  emit (.digitEn (positionEnable s.muxIdx)) (emit (.segBcd (positionDigit s s.muxIdx)) (emit (.digitEn 0b00#2) s))

/-- `MUXT`: periodic multiplex tick (44_display.md R210). -/
def execMuxt (s : State) : Host.Outcome State Fault Refusal := .next (renderPosition (toggleIndex (beginStep s)))

end Sys2Proof.Machine
end

