-- ==== Sys2Proof/Machine/Flags.lean ====
section
/-!
DEFINITION. The two status flags, each with the payload it stands for (10_state.md R44): the completed-frame mailbox
(10_state.md R26) and the pending selection event (10_state.md R33). No arithmetic operation sets a condition code.
-/

namespace Sys2Proof.Machine

/-- A validated frame's readings go to the mailbox, over whatever it held (40_frame_receiver.md R125, R128).
DESIGN CHOICE of the spec, D6; unsafe; assumption log 17. -/
def publishReadings (r : PerChannel Reading) (s : State) : State := { s with frameRd := r, frameReady := true }

/-- The foreground takes the frame: the flag is cleared, the readings stay (45_foreground.md R228). -/
def clearFrameReady (s : State) : State := { s with frameReady := false }

/-- A completed debounce becomes the pending event, over whatever was pending (43_channel_selector.md R184, R186).
DESIGN CHOICE of the spec, D7; unsafe; assumption log 17. -/
def postSelection (c : Chan) (s : State) : State := { s with selEvent := c, selPending := true }

/-- The foreground takes the event: the selection changes, the flag is cleared, the event's channel stays
(45_foreground.md R230). -/
def takeSelection (s : State) : State := { s with selection := s.selEvent, selPending := false }

end Sys2Proof.Machine
end

