-- ==== Sys2Proof/Machine/Foreground.lean ====
section
/-!
DEFINITION. The foreground loop: `FGF`, `FGS` (45_foreground.md). Each is one critical section, which is one atomic step
(45_foreground.md R232; DESIGN CHOICE of the spec, D3, D12; assumption logs 13, 20).
-/

namespace Sys2Proof.Machine

/-- A frame in the mailbox is taken and recorded (45_foreground.md R228). -/
def consumeFrame (s : State) : State :=
  if s.frameReady then recordFrame s.frameRd (clearFrameReady s) else s

/-- A pending selection event is taken (45_foreground.md R230). -/
def consumeSelection (s : State) : State := if s.selPending then takeSelection s else s

/-- `FGF`: consume "frame ready" (45_foreground.md R228). It is enabled at `fg_phase = 0` only; elsewhere the step is
refused (30_encoding.md R103). -/
def execFgf (s : State) : Host.Outcome State Fault Refusal :=
  if s.fgPhase = 0#1 then .next { consumeFrame (beginStep s) with fgPhase := 1#1 } else .refused .fgfNotEnabled

/-- `FGS`: consume "selection pending", then refresh with the new selection (45_foreground.md R230). It is enabled at
`fg_phase = 1` only; elsewhere the step is refused (30_encoding.md R103). -/
def execFgs (s : State) : Host.Outcome State Fault Refusal :=
  if s.fgPhase = 1#1 then .next { refresh (consumeSelection (beginStep s)) with fgPhase := 0#1 }
  else .refused .fgsNotEnabled

end Sys2Proof.Machine
end

