-- ==== Sys2Proof/Machine/Receiver.lean ====
section
/-!
DEFINITION. The Frame Receiver: `RXB` (40_frame_receiver.md).
-/

namespace Sys2Proof.Machine

/-- Store at the cursor, then advance it modulo 32 (40_frame_receiver.md R121). -/
def storeByte (b : Byte) (s : State) : State := { s.setFb s.rxPos.toNat b with rxPos := s.rxPos + 1#5 }

/-- Desync: the whole buffer is cleared and the cursor is 0 (40_frame_receiver.md R122). -/
def desync (s : State) : State := { s.clearFb with rxPos := 0#5 }

/-- The checksum comparison, a true equality test (40_frame_receiver.md R124). DESIGN CHOICE of the spec, D1; unsafe
against a board that runs the original code; assumption log 15. -/
def checksumOk (s : State) : Bool := sum30 s == ckval s

/-- Bytes 0 and 31 are cleared and the cursor is 0, whether or not the checksum matched (40_frame_receiver.md R125). -/
def closeFrame (s : State) : State :=
  { (s.setFb Config.startPos 0x00#8).setFb Config.sentPos 0x00#8 with rxPos := 0#5 }

/-- Frame complete: publish if the checksum holds, then close (40_frame_receiver.md R125). -/
def completeFrame (s : State) : State :=
  closeFrame (if checksumOk s then publishReadings (frameReadings s) s else s)

/-- What `RXB` does after the store, which was at index `p` (40_frame_receiver.md R120). -/
def examineFrame (p : BitVec 5) (s : State) : State :=
  if s.fb Config.startPos ≠ Config.startMarker then desync s
  else if p.toNat = Config.sentPos ∧ s.fb Config.sentPos ≠ 0x00#8 then completeFrame s
  else s

/-- `RXB b`: serial byte received (40_frame_receiver.md R120). -/
def execRxb (b : Byte) (s : State) : Host.Outcome State Fault Refusal :=
  .next (examineFrame s.rxPos (storeByte b (beginStep s)))

end Sys2Proof.Machine
end

