-- ==== Sys2Proof/Machine/Reset.lean ====
section
/-!
DEFINITION. Reset: `RST` (70_reset_and_hazards.md R280).
-/

namespace Sys2Proof.Machine

/-- Every state variable at its reset value (10_state.md R51). The collaborators are not reset, so what they still have
to deliver stays (70_reset_and_hazards.md R282). DEDUCED, safe; assumption log 24. -/
def resetVariables (s : State) : State := { State.reset with schedule := s.schedule, arrivals := s.arrivals }

/-- The output list of `RST`: "the new value of every output register (`led_safe = 0`, `led_unsafe = 0`,
`digit_en = 00`, `seg_bcd = 0`), with no `deb_start`" (70_reset_and_hazards.md R280). DESIGN CHOICE for the
order, unsafe; assumption log 5. -/
def emitResetOutputs (s : State) : State :=
  emit (.segBcd 0#4) (emit (.digitEn 0b00#2) (emit (.leds false false) s))

/-- `RST`: reset (70_reset_and_hazards.md R280). Enabled in every state. -/
def execRst (s : State) : Host.Outcome State Fault Refusal := .next (emitResetOutputs (resetVariables (beginStep s)))

end Sys2Proof.Machine
end

