-- ==== Sys2Proof/Machine/Selector.lean ====
section
/-!
DEFINITION. The Channel Selector: `BTNA`, `BTNB`, `DBT` (43_channel_selector.md).
-/

namespace Sys2Proof.Machine

/-- An edge on a button line: from `Idle` it starts a debounce and arms the timer (43_channel_selector.md R181, R182);
while `Debouncing` it changes nothing and emits nothing (R183). -/
def buttonEdge (line : Chan) (s : State) : State :=
  match s.debState with
  | .idle => emit .debStart { s with debCand := line, debState := .debouncing }
  | .debouncing => s

/-- The debounce timer fires: the candidate becomes the pending event (43_channel_selector.md R184); in `Idle` there is
no effect (R185). The line is not sampled: DESIGN CHOICE of the spec, D18; unsafe; assumption log 23. -/
def debounceExpiry (s : State) : State :=
  match s.debState with
  | .debouncing => { postSelection s.debCand s with debState := .idle }
  | .idle => s

/-- `BTNA`: edge on button line A (43_channel_selector.md R181, R183). -/
def execBtna (s : State) : Host.Outcome State Fault Refusal := .next (buttonEdge .A (beginStep s))

/-- `BTNB`: edge on button line B (43_channel_selector.md R182, R183). -/
def execBtnb (s : State) : Host.Outcome State Fault Refusal := .next (buttonEdge .B (beginStep s))

/-- `DBT`: the one-shot debounce timer fires (43_channel_selector.md R184, R185). -/
def execDbt (s : State) : Host.Outcome State Fault Refusal := .next (debounceExpiry (beginStep s))

end Sys2Proof.Machine
end

