-- ==== Sys2Proof/Machine/Dispatch.lean ====
section
/-!
DEFINITION. One arm for each event (30_encoding.md R100).
-/

namespace Sys2Proof.Machine

def exec (i : Instr) (s : State) : Host.Outcome State Fault Refusal :=
  match i with
  | .rst => Sys2Proof.Machine.execRst s
  | .rxb b => Sys2Proof.Machine.execRxb b s
  | .btna => Sys2Proof.Machine.execBtna s
  | .btnb => Sys2Proof.Machine.execBtnb s
  | .dbt => Sys2Proof.Machine.execDbt s
  | .muxt => Sys2Proof.Machine.execMuxt s
  | .fgf => Sys2Proof.Machine.execFgf s
  | .fgs => Sys2Proof.Machine.execFgs s

end Sys2Proof.Machine
end

