-- ==== Sys2Proof/Machine/Fetch.lean ====
section
/-!
DEFINITION. Which event the next step is. The core fetches no instructions (20_memory.md R81): the events come from
its agents, and the order in which they step is data in `schedule`, as far as it is known, and free beyond that (DESIGN CHOICE; assumption
logs 1, 29).
-/

namespace Sys2Proof.Machine

/-- The foreground agent's next event: `FGF` at `fg_phase = 0`, `FGS` at `fg_phase = 1` (45_foreground.md R226). -/
def foregroundTurn (s : State) : Instr := if s.fgPhase = 0#1 then .fgf else .fgs

/-- The name under which a reserved word is refused (30_encoding.md R102). -/
def refusalOf : DecodeError → Refusal
  | .reservedKind k => .reservedKind k
  | .nonzeroData k d => .nonzeroData k d

/-- What the environment delivers at a step with nothing scheduled, if it delivers anything. The foreground agent's events
come from the core itself and are no arrivals (00_scope.md R9). -/
def nextArrival (s : State) : Option Instr := (Config.arrival s.arrivals).filter (fun i => i.agent != .foreground)

/-- The event of a step with nothing scheduled: an arrival, which may delay the foreground past any number of steps
(45_foreground.md R234), or else the foreground agent's own step (00_scope.md R9). DEDUCED, unsafe for a claim that the
core never rests; assumption logs 2, 29. -/
def unscheduledEvent (s : State) : Instr := (nextArrival s).getD (foregroundTurn s)

/-- The next event and the state in which it runs: the next scheduled word, or, when nothing is scheduled, what the
environment's next choice makes it. -/
def fetch (s : State) : Except DecodeError (Instr × State) :=
  match s.schedule with
  | [] => .ok (unscheduledEvent s, { s with arrivals := s.arrivals + 1 })
  | w :: rest =>
    match decode w with
    | .ok i => .ok (i, { s with schedule := rest })
    | .error e => .error e

/-- Schedule an event word to be the very next step. -/
def deliverNext (w : EventWord) (s : State) : State := { s with schedule := w :: s.schedule }

end Sys2Proof.Machine
end

