-- ==== Sys2Proof/Machine/Step.lean ====
section
/-!
DEFINITION. One step of the core: the next event, run as one atomic step (00_scope.md R8).
-/

namespace Sys2Proof.Machine

/-- One step. A reserved word is refused by name and never taken as a no-op (30_encoding.md R102). -/
def step (s : State) : Host.Outcome State Fault Refusal :=
  match fetch s with
  | .ok (i, s') => exec i s'
  | .error e => .refused (refusalOf e)

/-- The state in which the very next step runs the instruction whose bits are `w`: the event is
delivered from outside. DESIGN CHOICE, safe; assumption logs 3, 6. -/
def State.withFetchWord (s : State) (nbits w : Nat) : State := deliverNext (BitVec.ofNat 12 (tableBits nbits w)) s

end Sys2Proof.Machine
end

