-- ==== Sys2Proof/Machine/Execution.lean ====
section
/-!
DEFINITION. Infinite executions and fairness: a sequence of events and the states between them (20_memory.md R75), and
the premises under which the foreground and the ticks go on (45_foreground.md R234, 70_reset_and_hazards.md R299). No
schedule is fair by itself: fairness is a premise of the claims that need it.
-/

namespace Sys2Proof.Machine

/-- The event `i` leads from `s` to `t`, whatever the model's own record of coming events holds. -/
def takes (i : Instr) (s t : State) : Prop := ∃ q n, exec i { s with schedule := q, arrivals := n } = .next t

/-- An infinite run: each event is applied atomically to the state that the previous one left. An infinite execution is
such a run from the reset state (20_memory.md R75). -/
def InfiniteRun (ev : Nat → Instr) (st : Nat → State) : Prop := ∀ n, takes (ev n) (st n) (st (n + 1))

/-- The foreground agent steps again and again (45_foreground.md R234, 70_reset_and_hazards.md R299). -/
def ForegroundFair (ev : Nat → Instr) : Prop := ∀ n, ∃ m, n ≤ m ∧ (ev m).agent = .foreground

/-- The periodic timer delivers `MUXT` again and again (70_reset_and_hazards.md R299). -/
def TickFair (ev : Nat → Instr) : Prop := ∀ n, ∃ m, n ≤ m ∧ ev m = .muxt

/-- The fairness assumption, whole (70_reset_and_hazards.md R299). -/
def Fair (ev : Nat → Instr) : Prop := ForegroundFair ev ∧ TickFair ev

end Sys2Proof.Machine
end

