-- ==== Sys2Proof/Machine/Ports.lean ====
section
/-!
DEFINITION. The outputs as the collaborators see them (10_state.md R41, 30_encoding.md R109), the numeric codes of
the enumerations (00_scope.md R12), and the widths of the state variables (10_state.md R20, R51).
-/

namespace Sys2Proof.Machine

/-- The output ports that have a register (10_state.md R41). -/
structure OutputPorts where
  ledSafe : Bool
  ledUnsafe : Bool
  digitEn : BitVec 2
  segBcd : Bcd
deriving DecidableEq, Repr

/-- The values at the output ports (10_state.md R41). -/
def State.ports (s : State) : OutputPorts := ⟨s.ledSafe, s.ledUnsafe, s.digitEn, s.segBcd⟩

/-- The physical segment lines carry `SEG_LUT(seg_bcd)` (44_display.md R213): the excluded table, uninterpreted. -/
def State.segLines (s : State) : BitVec Config.segW := Config.segLut s.segBcd

/-- What the two indicator lines say: `(1, 0)` is `Safe`, `(0, 1)` is `Unsafe`, anything else neither
(30_encoding.md R109). -/
def State.indicator (s : State) : Option IndicatorState :=
  match s.ledSafe, s.ledUnsafe with
  | true, false => some .isSafe
  | false, true => some .isUnsafe
  | true, true => none
  | false, false => none

/-- `A = 0`, `B = 1` (00_scope.md R12). -/
def chanCode : Chan → BitVec 1
  | .A => 0#1
  | .B => 1#1

/-- `Idle = 0`, `Debouncing = 1` (00_scope.md R12). -/
def debStateCode : DebState → BitVec 1
  | .idle => 0#1
  | .debouncing => 1#1

/-- `Safe = 0`, `Unsafe = 1` (00_scope.md R12). -/
def indicatorCode : IndicatorState → BitVec 1
  | .isSafe => 0#1
  | .isUnsafe => 1#1

/-- The 20 variables with their widths in bits (10_state.md R20, R51). -/
def stateVariables : List (String × Nat) :=
  [("rx_buf", Config.frameLen * 8), ("rx_pos", 5), ("frame_ready", 1), ("frame_rd", Config.nch * 16),
   ("hist", Config.nch * Config.ringDepth * 16), ("hist_pos", Config.nch * 2), ("avg", Config.nch * 16),
   ("deb_state", 1), ("deb_cand", 1), ("sel_pending", 1), ("sel_event", 1), ("selection", 1), ("dig_tens", 4),
   ("dig_units", 4), ("mux_idx", 1), ("digit_en", Config.ndigits), ("seg_bcd", 4), ("led_safe", 1),
   ("led_unsafe", 1), ("fg_phase", 1)]

end Sys2Proof.Machine
end

