-- ==== Sys2Proof/Machine/Script.lean ====
section
/-!
DEFINITION. Executions and event scripts: a list of events run in order (20_memory.md R75), the predicate `VALID` on
frames (30_encoding.md R95), the event script with its pseudo-operations, as data (30_encoding.md R111; assumption
log 27), and the recorded output pairs (44_display.md R211).
-/

namespace Sys2Proof.Machine

/-- The events in order, each one atomic step, up to the first that is refused (20_memory.md R75). -/
def runEvents : List Instr → State → Host.Outcome State Fault Refusal
  | [], s => .next s
  | i :: es, s =>
    match exec i s with
    | .next t => runEvents es t
    | .fault f => .fault f
    | .refused r => .refused r

/-- The output lists of a run, one after the other, up to the first event that is refused. -/
def runOutputs : List Instr → State → List OutputChange
  | [], _ => []
  | i :: es, s =>
    match exec i s with
    | .next t => t.outputs ++ runOutputs es t
    | .fault _ => []
    | .refused _ => []

/-- The byte an event carries, if it is an `RXB`. -/
def receivedByte : Instr → Option Byte
  | .rxb b => some b
  | .rst => none
  | .btna => none
  | .btnb => none
  | .dbt => none
  | .muxt => none
  | .fgf => none
  | .fgs => none

/-- The bytes that a list of events delivers to the receiver, in order. -/
def receivedBytes (es : List Instr) : List Byte := es.filterMap receivedByte

/-- A frame: 32 bytes, numbered in arrival order (30_encoding.md R90). -/
abbrev Frame := Vector Byte 32

/-- `VALID(f)` (30_encoding.md R95). -/
def validFrame (f : Frame) : Prop :=
  f[0] = 0x42#8 ∧ f[31] ≠ 0x00#8 ∧
    ((f.toList.take 30).map (fun b => b.toNat)).sum = 256 * f[29].toNat + f[30].toNat

/-- `FRAME b0 ... b31`: 32 `RXB` events (30_encoding.md R111). -/
def frameEvents (f : Frame) : List Instr := f.toList.map Instr.rxb

/-- The high byte of a reading (30_encoding.md R111). -/
def highByte (r : Reading) : Byte := r.extractLsb' 8 8

/-- The low byte of a reading (30_encoding.md R111). -/
def lowByte (r : Reading) : Byte := r.extractLsb' 0 8

/-- `S28` of a `VFRAME`: the sum of its bytes 0 to 28 (30_encoding.md R111). -/
def vframeSum (r1 r2 r3 : Reading) : Nat :=
  0x42 + (highByte r1).toNat + (lowByte r1).toNat + (highByte r2).toNat + (lowByte r2).toNat + (highByte r3).toNat +
    (lowByte r3).toNat

/-- The 32 bytes of `VFRAME r1 r2 r3` (30_encoding.md R111). -/
def vframe (r1 r2 r3 : Reading) : Frame :=
  #v[0x42#8, 0#8, 0#8, 0#8, 0#8, 0#8, 0#8, 0#8, 0#8, 0#8,
     highByte r1, lowByte r1, highByte r2, lowByte r2, highByte r3, lowByte r3,
     0#8, 0#8, 0#8, 0#8, 0#8, 0#8, 0#8, 0#8, 0#8, 0#8, 0#8, 0#8, 0#8,
     BitVec.ofNat 8 (vframeSum r1 r2 r3 / 255), BitVec.ofNat 8 (vframeSum r1 r2 r3 % 255), 0x01#8]

/-- `PASS`: one foreground pass (30_encoding.md R111). -/
def passEvents : List Instr := [.fgf, .fgs]

/-- A line of an event script (30_encoding.md R111): an event, or one of the three pseudo-operations. -/
inductive ScriptLine where
  | event (i : Instr)
  | frame (f : Frame)
  | vframe (r1 r2 r3 : Reading)
  | pass
deriving DecidableEq, Repr

/-- The events a line expands to (30_encoding.md R111). -/
def ScriptLine.events : ScriptLine → List Instr
  | .event i => [i]
  | .frame f => frameEvents f
  | .vframe r1 r2 r3 => frameEvents (Machine.vframe r1 r2 r3)
  | .pass => passEvents

/-- A script is assembled to a list of event words (30_encoding.md R111). -/
def assemble (lines : List ScriptLine) : List EventWord := (lines.flatMap ScriptLine.events).map encode

/-- A pair `(digit_en, seg_bcd)` after one more output change (44_display.md R211). -/
def pairAfter (p : BitVec 2 × Bcd) : OutputChange → BitVec 2 × Bcd
  | .leds _ _ => p
  | .digitEn v => (v, p.2)
  | .segBcd v => (p.1, v)
  | .debStart => p

/-- The pairs `(digit_en, seg_bcd)`: the one before, then one after each output change (44_display.md R211). -/
def recordedPairs : BitVec 2 × Bcd → List OutputChange → List (BitVec 2 × Bcd)
  | p, [] => [p]
  | p, o :: os => p :: recordedPairs (pairAfter p o) os

end Sys2Proof.Machine
end

