-- ==== Sys2Proof/Safety.lean ====
section
/-!
DEFINITION. The terms in which claims about the core are stated: when an event is enabled, the invariants of the
reachable states, who owns which variable, which adjacent steps commute, and when two states cannot be told apart.
-/

namespace Sys2Proof.Safety

open Sys2Proof Sys2Proof.Machine

/-- Enabledness (30_encoding.md R103). -/
def enabled (i : Instr) (s : State) : Prop :=
  match i with
  | .rst => True
  | .rxb _ => True
  | .btna => True
  | .btnb => True
  | .dbt => True
  | .muxt => True
  | .fgf => s.fgPhase = 0#1
  | .fgs => s.fgPhase = 1#1

/-- The receiver's invariants: the buffer is canonical (20_memory.md R60), and 10_state.md R23. -/
structure ReceiverInv (s : State) : Prop where
  canonical : Memory.wf s.rxBuf
  assembling : s.rxPos ≠ 0#5 → s.fb 0 = 0x42#8
  between : s.rxPos = 0#5 → s.fb 0 = 0x00#8 ∨ s.fb 0 = 0x42#8
  sentinelClear : s.rxPos = 0#5 → s.fb 31 = 0x00#8

/-- The store's invariants: the cursors agree (10_state.md R28) and each average is that of its ring
(10_state.md R29). -/
structure StoreInv (s : State) : Prop where
  cursors : s.histPos.c1 = s.histPos.c2 ∧ s.histPos.c2 = s.histPos.c3
  averages : ∀ c, (s.avg.get c).toNat =
    ((s.hist.get c)[0].toNat + (s.hist.get c)[1].toNat + (s.hist.get c)[2].toNat + (s.hist.get c)[3].toNat) / 4

/-- The display's invariants: digits are decimal (10_state.md R35, 30_encoding.md R109); both positions are off, or
only the active one is on (10_state.md R36, R37). -/
structure DisplayInv (s : State) : Prop where
  tens : s.digTens.toNat ≤ 9
  units : s.digUnits.toNat ≤ 9
  shown : s.segBcd.toNat ≤ 9
  onePosition : s.digitEn = 0b00#2 ∨ (s.muxIdx = 0#1 ∧ s.digitEn = 0b01#2) ∨ (s.muxIdx = 1#1 ∧ s.digitEn = 0b10#2)

/-- The outputs' invariants: the indicator lines are never both active (10_state.md R39), and before an `FGF` the
digits and the indicator are those of the selected average, but that the indicator is dark until the first `FGS`
(10_state.md R52, 30_encoding.md R109). -/
structure OutputInv (s : State) : Prop where
  exclusive : ¬(s.ledSafe = true ∧ s.ledUnsafe = true)
  settledDigits : s.fgPhase = 0#1 →
    10 * s.digTens.toNat + s.digUnits.toNat = min (s.avg.get (selectedChannel s.selection)).toNat 99
  settledLeds : s.fgPhase = 0#1 → (s.ledSafe = true ∨ s.ledUnsafe = true) →
    (s.ledUnsafe = true ↔ 50 < (s.avg.get (selectedChannel s.selection)).toNat)

/-- The invariant of the reachable states. -/
structure CoreInv (s : State) : Prop where
  receiver : ReceiverInv s
  store : StoreInv s
  display : DisplayInv s
  output : OutputInv s

/-- Two states agree on the serial interrupt's own variables (60_exceptions.md R258, row 1). -/
def sameReceiver (s t : State) : Prop := t.rxBuf = s.rxBuf ∧ t.rxPos = s.rxPos

/-- They agree on the mailbox (row 2). -/
def sameMailbox (s t : State) : Prop := t.frameReady = s.frameReady ∧ t.frameRd = s.frameRd

/-- They agree on the store (row 3). -/
def sameStore (s t : State) : Prop := t.hist = s.hist ∧ t.histPos = s.histPos ∧ t.avg = s.avg

/-- They agree on the debounce machine (row 4). -/
def sameDebounce (s t : State) : Prop := t.debState = s.debState ∧ t.debCand = s.debCand

/-- They agree on the pending selection event (row 5). -/
def sameSelEvent (s t : State) : Prop := t.selPending = s.selPending ∧ t.selEvent = s.selEvent

/-- They agree on the selection (row 6). -/
def sameSelection (s t : State) : Prop := t.selection = s.selection

/-- They agree on the digits (row 7). -/
def sameDigits (s t : State) : Prop := t.digTens = s.digTens ∧ t.digUnits = s.digUnits

/-- They agree on the multiplexer's own variables (row 8). -/
def sameMultiplexer (s t : State) : Prop := t.muxIdx = s.muxIdx ∧ t.digitEn = s.digitEn ∧ t.segBcd = s.segBcd

/-- They agree on the indicator lines (row 9). -/
def sameLeds (s t : State) : Prop := t.ledSafe = s.ledSafe ∧ t.ledUnsafe = s.ledUnsafe

/-- They agree on the foreground's position (row 10). -/
def samePhase (s t : State) : Prop := t.fgPhase = s.fgPhase

/-- They agree on every variable of 10_state.md R20: all but the model's own three fields. -/
def sameVariables (s t : State) : Prop :=
  t = { s with schedule := t.schedule, arrivals := t.arrivals, outputs := t.outputs }

/-- An `RXB b` step from `s` completes a frame that validates (40_frame_receiver.md R130). -/
def validates (b : Byte) (s : State) : Prop :=
  s.rxPos = 31#5 ∧ s.fb 0 = 0x42#8 ∧ b ≠ 0x00#8 ∧
    ((List.range 30).map (fun i => (s.fb i).toNat)).sum = 256 * (s.fb 29).toNat + (s.fb 30).toNat

/-- The digit that the next `MUXT` renders (44_display.md R210). -/
def nextDigit (s : State) : Bcd := if s.muxIdx = 0#1 then s.digUnits else s.digTens

/-- The exceptions of 20_memory.md R83, in either order of the two events, at the state before them. -/
def orderMatters (i j : Instr) (s : State) : Prop :=
  match i, j with
  | .btna, .dbt => True
  | .btnb, .dbt => True
  | .dbt, .btna => True
  | .dbt, .btnb => True
  | .rxb b, .fgf => validates b s
  | .fgf, .rxb b => validates b s
  | .dbt, .fgs => s.debState = .debouncing
  | .fgs, .dbt => s.debState = .debouncing
  | .fgs, .muxt => ∃ t, exec .fgs s = .next t ∧ nextDigit t ≠ nextDigit s
  | .muxt, .fgs => ∃ t, exec .fgs s = .next t ∧ nextDigit t ≠ nextDigit s
  | _, _ => False

/-- Equal but for buffer bytes at or above the cursor: those that the next frame overwrites before anything reads them
(40_frame_receiver.md R127). -/
def sameButStaleBytes (s t : State) : Prop :=
  t = { s with rxBuf := t.rxBuf } ∧ ∀ a, a < s.rxPos.toNat → t.fb a = s.fb a

/-- Equal but for the fields that mean nothing where they stand: `frame_rd` with `frame_ready = 0`, `sel_event` with
`sel_pending = 0`, `deb_cand` in `Idle` (93_implementation_defined.md U4). -/
def sameButDontCares (s t : State) : Prop :=
  t = { s with frameRd := t.frameRd, selEvent := t.selEvent, debCand := t.debCand } ∧
    (s.frameReady = true → t.frameRd = s.frameRd) ∧ (s.selPending = true → t.selEvent = s.selEvent) ∧
    (s.debState = .debouncing → t.debCand = s.debCand)

/-- Break-before-make between two recorded pairs (44_display.md R211): (a) never both positions on; (b) a position comes
on with the digit already shown; (c) the digit changes only while both positions are off. -/
def breakBeforeMake (tens units : Bcd) (p q : BitVec 2 × Bcd) : Prop :=
  q.1 ≠ 0b11#2 ∧
    (q.1 ≠ p.1 → q.1 = 0b01#2 → q.2 = p.2 ∧ q.2 = tens) ∧
    (q.1 ≠ p.1 → q.1 = 0b10#2 → q.2 = p.2 ∧ q.2 = units) ∧
    (q.2 ≠ p.2 → p.1 = 0b00#2 ∧ q.1 = 0b00#2)

/-- The foreground events of a list alternate, starting with `FGF` at phase 0 and `FGS` at phase 1; the result is the
phase after them (45_foreground.md R226). -/
def alternates : BitVec 1 → List Instr → Prop
  | _, [] => True
  | ph, i :: es =>
    match i with
    | .fgf => ph = 0#1 ∧ alternates 1#1 es
    | .fgs => ph = 1#1 ∧ alternates 0#1 es
    | .rst => alternates 0#1 es
    | .rxb _ => alternates ph es
    | .btna => alternates ph es
    | .btnb => alternates ph es
    | .dbt => alternates ph es
    | .muxt => alternates ph es

/-- The one-shot timer runs after a step if the step armed it, or if it ran before and this is not its expiry
(10_state.md R48, part a). -/
def timerAfter (i : Instr) (outs : List OutputChange) (running : Bool) : Bool :=
  outs.contains .debStart || (running && !(i == .dbt))

end Sys2Proof.Safety
end

