-- ==== Sys2Proof/Certificates/Slice0/Obligations.lean ====
section
/-!
DEFINITION. The statements about the core, taken from the numbered rules of spec/. Each docstring names what a statement
formalises.
-/

open Sys2Proof Sys2Proof.Machine Sys2Proof.Safety

/-! Encoding (30_encoding.md section 2). -/

/-- Decoding an encoded event gives it back, and a word that decodes is the encoding of what it decodes to. -/
def Obligations.DecodeAndEncodeAgree : Prop :=
  (∀ i : Instr, i.wellFormed = true → decode (encode i) = .ok i) ∧
    (∀ (w : EventWord) (i : Instr), decode w = .ok i → encode i = w)

/-- 30_encoding.md R102: the reserved words are refused at decode and by the step, every other word spells an event. -/
def Obligations.ReservedWordsAreRefused : Prop :=
  ∀ w : EventWord,
    (2048 ≤ w.toNat → decode w = .error (.reservedKind (BitVec.ofNat 4 (w.toNat / 256)))) ∧
    (w.toNat < 2048 → w.toNat / 256 ≠ 1 → w.toNat % 256 ≠ 0 →
      decode w = .error (.nonzeroData (BitVec.ofNat 4 (w.toNat / 256)) (BitVec.ofNat 8 (w.toNat % 256)))) ∧
    (w.toNat < 2048 → (w.toNat / 256 = 1 ∨ w.toNat % 256 = 0) → ∃ i, decode w = .ok i) ∧
    (∀ (e : DecodeError) (s : State) (rest : List EventWord),
      decode w = .error e → s.schedule = w :: rest → step s = .refused (refusalOf e))

/-- 30_encoding.md section 2: the decoder accepts exactly the words some row of the table matches, and the event it
answers has the mnemonic of the only row that matches. -/
def Obligations.DecoderMatchesTheOpcodeTable : Prop :=
  (∀ w : EventWord, (∃ i, decode w = .ok i) ↔ legalWord w = true) ∧
    (∀ (w : EventWord) (i : Instr), decode w = .ok i →
      ∃ r ∈ opcodeTable, r.mnemonic = i.mnemonic ∧ r.spells w = true ∧
        ∀ q ∈ opcodeTable, q.spells w = true → q = r)

/-- 30_encoding.md section 2: of the 4096 words, 263 spell an event. -/
def Obligations.LegalWordsAreCounted : Prop :=
  ((List.range 4096).filter (fun n => (decodeTableWord 16 n).isSome)).length = 263

/-- 95_test_vectors.md V90 to V94: words written out from the encoding decode to the events they stand for. -/
def Obligations.WordsOfTheSpecDecode : Prop :=
  decode 0x000#12 = .ok .rst ∧ decode 0x142#12 = .ok (.rxb 0x42#8) ∧ decode 0x1FF#12 = .ok (.rxb 0xFF#8) ∧
    decode 0x200#12 = .ok .btna ∧ decode 0x300#12 = .ok .btnb ∧ decode 0x400#12 = .ok .dbt ∧
    decode 0x500#12 = .ok .muxt ∧ decode 0x600#12 = .ok .fgf ∧ decode 0x700#12 = .ok .fgs ∧
    decode 0x701#12 = .error (.nonzeroData 7#4 1#8) ∧ decode 0x942#12 = .error (.reservedKind 9#4)

/-! The step (00_scope.md section 4). -/

/-- A step runs the event that the next scheduled word decodes to. -/
def Obligations.StepRunsTheScheduledEvent : Prop :=
  ∀ (s : State) (w : EventWord) (rest : List EventWord) (i : Instr),
    s.schedule = w :: rest → decode w = .ok i → step s = exec i { s with schedule := rest }

/-- With nothing scheduled a step runs what the environment delivers, and otherwise the foreground agent takes its own next
step (the model's choice, assumption logs 2, 29). -/
def Obligations.StepRunsAnArrivalOrTheForegroundTurn : Prop :=
  ∀ s : State, s.schedule = [] → ∃ i, step s = exec i { s with arrivals := s.arrivals + 1 } ∧
    ((Config.arrival s.arrivals = some i ∧ i.agent ≠ .foreground) ∨
      ((∀ j, Config.arrival s.arrivals = some j → j.agent = .foreground) ∧
        i = if s.fgPhase = 0#1 then .fgf else .fgs))

/-- A placed instruction is the very next one to run (the model's choice, assumption log 3). -/
def Obligations.PlacedInstructionRunsNext : Prop :=
  ∀ (s : State) (nbits w : Nat) (i : Instr),
    decodeTableWord nbits w = some i → step (s.withFetchWord nbits w) = exec i s

/-- 30_encoding.md R103: six events are enabled in every state, `FGF` at phase 0 only and `FGS` at phase 1 only; an
enabled event has a next state and one that is not enabled is refused; `DBT` in `Idle` is a no-op. -/
def Obligations.EnabledEventsHaveANextState : Prop :=
  (∀ (i : Instr) (s : State), i ≠ .fgf → i ≠ .fgs → ∃ t, exec i s = .next t) ∧
    (∀ s : State, s.fgPhase = 0#1 → (∃ t, exec .fgf s = .next t) ∧ exec .fgs s = .refused .fgsNotEnabled) ∧
    (∀ s : State, s.fgPhase = 1#1 → (∃ t, exec .fgs s = .next t) ∧ exec .fgf s = .refused .fgfNotEnabled) ∧
    (∀ s : State, s.debState = .idle → ∃ t, exec .dbt s = .next t ∧ sameVariables s t)

/-- 45_foreground.md section 1, 20_memory.md section 4: a list of events is an execution from a state exactly when its
foreground events alternate from the state's phase; the interrupt events may stand anywhere. -/
def Obligations.ExecutionsAreTheAlternatingInterleavings : Prop :=
  ∀ (es : List Instr) (s : State), (∃ t, runEvents es s = .next t) ↔ alternates s.fgPhase es

/-! Reset (70_reset_and_hazards.md section 1). -/

/-- `RST` gives every variable the value of the reset table, whatever it held, and emits the output registers' new
values. The values but the ring's are the spec's own decisions (assumption log 9). The order of the three output changes
and the one entry for the two indicator lines are the model's choice (assumption log 5), and that what is still to be
delivered stays is its inference (assumption logs 24, 29). -/
def Obligations.ResetLeavesTheResetTable : Prop :=
  ∀ s : State, ∃ t, exec .rst s = .next t ∧
    (∀ a, t.fb a = 0x00#8) ∧ t.rxPos = 0#5 ∧ t.frameReady = false ∧
    (∀ c, t.frameRd.get c = 0#16 ∧ (∀ i : BitVec 2, ringRead (t.hist.get c) i = 0#16) ∧ t.histPos.get c = 0#2 ∧
      t.avg.get c = 0#16) ∧
    t.debState = .idle ∧ t.debCand = .A ∧ t.selPending = false ∧ t.selEvent = .A ∧ t.selection = .A ∧
    t.digTens = 0#4 ∧ t.digUnits = 0#4 ∧ t.muxIdx = 0#1 ∧ t.digitEn = 0b00#2 ∧ t.segBcd = 0#4 ∧
    t.ledSafe = false ∧ t.ledUnsafe = false ∧ t.fgPhase = 0#1 ∧ t.schedule = s.schedule ∧ t.arrivals = s.arrivals ∧
    t.outputs = [.leds false false, .digitEn 0b00#2, .segBcd 0#4]

/-- The invariant holds in the reset state. -/
def Obligations.ResetStateMeetsTheInvariant : Prop := CoreInv State.reset

/-- Every step keeps the invariant of the reachable states (10_state.md). -/
def Obligations.StepKeepsTheInvariant : Prop :=
  ∀ s t : State, CoreInv s → step s = .next t → CoreInv t

/-! The Frame Receiver (40_frame_receiver.md). -/

/-- 40_frame_receiver.md section 1: where the start byte is good and no frame completes, `RXB` stores the byte at the
cursor and advances the cursor modulo 32, and nothing else changes; a sentinel of zero at index 31 is such a byte. -/
def Obligations.RxbStoresAnOrdinaryByte : Prop :=
  ∀ (b : Byte) (s : State),
    (if s.rxPos = 0#5 then b else s.fb 0) = 0x42#8 → (s.rxPos = 31#5 → b = 0x00#8) →
    ∃ t, exec (.rxb b) s = .next t ∧
      t = { s with rxBuf := t.rxBuf, rxPos := BitVec.ofNat 5 ((s.rxPos.toNat + 1) % 32), outputs := [] } ∧
      t.fb s.rxPos.toNat = b ∧ ∀ a, a ≠ s.rxPos.toNat → t.fb a = s.fb a

/-- 40_frame_receiver.md section 1: where byte 0 is not the start marker after the store, the whole buffer and the cursor
become 0 and nothing else changes; under the receiver's invariants this happens at cursor 0 only. -/
def Obligations.RxbDesyncDiscardsEverything : Prop :=
  ∀ (b : Byte) (s : State), (if s.rxPos = 0#5 then b else s.fb 0) ≠ 0x42#8 →
    (∃ t, exec (.rxb b) s = .next t ∧ t = { s with rxBuf := t.rxBuf, rxPos := 0#5, outputs := [] } ∧
      ∀ a, t.fb a = 0x00#8) ∧
    (ReceiverInv s → s.rxPos = 0#5)

/-- 40_frame_receiver.md R125: frame complete. On a match the three readings are published; whether or not the checksum
matched, bytes 0 and 31 are cleared and the cursor is 0; everything else is as before. -/
def Obligations.RxbCompletesAFrame : Prop :=
  ∀ (b : Byte) (s : State), s.rxPos = 31#5 → s.fb 0 = 0x42#8 → b ≠ 0x00#8 →
    ∃ t, exec (.rxb b) s = .next t ∧
      t = { s with rxBuf := t.rxBuf, rxPos := 0#5, frameReady := t.frameReady, frameRd := t.frameRd, outputs := [] } ∧
      t.fb 0 = 0x00#8 ∧ t.fb 31 = 0x00#8 ∧ (∀ a, a ≠ 0 → a ≠ 31 → t.fb a = s.fb a) ∧
      (if ((List.range 30).map (fun i => (s.fb i).toNat)).sum = 256 * (s.fb 29).toNat + (s.fb 30).toNat then
        t.frameReady = true ∧ t.frameRd.c1.toNat = 256 * (s.fb 10).toNat + (s.fb 11).toNat ∧
          t.frameRd.c2.toNat = 256 * (s.fb 12).toNat + (s.fb 13).toNat ∧
          t.frameRd.c3.toNat = 256 * (s.fb 14).toNat + (s.fb 15).toNat
      else t.frameReady = s.frameReady ∧ t.frameRd = s.frameRd)

/-- 30_encoding.md R104: `FIELD16` is big-endian and zero-extended, and it is what forms the readings and the checksum
value. -/
def Obligations.Field16IsBigEndian : Prop :=
  (∀ hi lo : Byte, (field16 hi lo).toNat = 256 * hi.toNat + lo.toNat) ∧
    (∀ s : State, frameReadings s =
        ⟨field16 (s.fb 10) (s.fb 11), field16 (s.fb 12) (s.fb 13), field16 (s.fb 14) (s.fb 15)⟩ ∧
      ckval s = field16 (s.fb 29) (s.fb 30)) ∧
    field16 0x01#8 0x23#8 = 0x0123#16 ∧ (0x0123#16).toNat = 291

/-- 40_frame_receiver.md section 2 (rejection): the mailbox's readings are written only by an `RXB` that completes a frame
whose start, sentinel and checksum all hold, and by reset. -/
def Obligations.OnlyValidFramesReachTheMailbox : Prop :=
  ∀ (i : Instr) (s t : State), exec i s = .next t → i ≠ .rst → t.frameRd ≠ s.frameRd →
    ∃ b, i = .rxb b ∧ validates b s ∧ t.frameReady = true ∧
      t.frameRd = ⟨field16 (s.fb 10) (s.fb 11), field16 (s.fb 12) (s.fb 13), field16 (s.fb 14) (s.fb 15)⟩

/-- 40_frame_receiver.md section 2 (acceptance): from cursor 0, the bytes of a valid frame, with any steps of the other
agents between them, are accepted by the last of them; and received back to back they are always accepted. -/
def Obligations.ValidFrameIsAccepted : Prop :=
  ∀ (f : Frame) (s : State), validFrame f → s.rxPos = 0#5 →
    (∀ (es : List Instr) (t : State), receivedBytes es = f.toList → .rst ∉ es → es.getLast? = some (.rxb f[31]) →
      runEvents es s = .next t →
      t.frameReady = true ∧ t.frameRd = ⟨field16 f[10] f[11], field16 f[12] f[13], field16 f[14] f[15]⟩ ∧
        t.rxPos = 0#5 ∧ t.fb 0 = 0x00#8 ∧ t.fb 31 = 0x00#8) ∧
    (∃ t, runEvents (frameEvents f) s = .next t ∧ t.frameReady = true ∧
      t.frameRd = ⟨field16 f[10] f[11], field16 f[12] f[13], field16 f[14] f[15]⟩)

/-- 40_frame_receiver.md section 3: a frame that starts with the marker and is not valid leaves the mailbox as it is and
the cursor at 0, whatever the other interrupt agents do between its bytes. -/
def Obligations.InvalidFrameIsDropped : Prop :=
  ∀ (f : Frame) (s t : State) (es : List Instr), f[0] = 0x42#8 → ¬validFrame f → s.rxPos = 0#5 →
    receivedBytes es = f.toList → .rst ∉ es → .fgf ∉ es → runEvents es s = .next t →
    t.frameReady = s.frameReady ∧ t.frameRd = s.frameRd ∧ t.rxPos = 0#5 ∧ t.fb 31 = 0x00#8

/-- 30_encoding.md section 1: the checksum field lies inside its own sum, so a frame validates with one field, or with two
when the sum of bytes 0 to 28 is a positive multiple of 255. -/
def Obligations.ChecksumFieldSolutions : Prop :=
  ∀ f : Frame, f[0] = 0x42#8 → f[31] ≠ 0x00#8 →
    (validFrame f ↔
      (f[29].toNat = ((f.toList.take 29).map (fun b => b.toNat)).sum / 255 ∧
        f[30].toNat = ((f.toList.take 29).map (fun b => b.toNat)).sum % 255) ∨
      (255 ∣ ((f.toList.take 29).map (fun b => b.toNat)).sum ∧
        f[29].toNat + 1 = ((f.toList.take 29).map (fun b => b.toNat)).sum / 255 ∧ f[30].toNat = 255))

/-- 30_encoding.md section 7: `VFRAME` always yields a valid frame that carries its three readings. -/
def Obligations.VframeIsValid : Prop :=
  ∀ r1 r2 r3 : Reading, validFrame (vframe r1 r2 r3) ∧
    field16 (vframe r1 r2 r3)[10] (vframe r1 r2 r3)[11] = r1 ∧
    field16 (vframe r1 r2 r3)[12] (vframe r1 r2 r3)[13] = r2 ∧
    field16 (vframe r1 r2 r3)[14] (vframe r1 r2 r3)[15] = r3

/-- 40_frame_receiver.md section 1 (stale bytes): two states that differ only in buffer bytes at or above the cursor give
the same outputs and the same states, but for such bytes, under every sequence of events. -/
def Obligations.StaleBytesAreUnobservable : Prop :=
  ∀ (es : List Instr) (s t s' : State), sameButStaleBytes s t → runEvents es s = .next s' →
    (∃ t', runEvents es t = .next t' ∧ sameButStaleBytes s' t') ∧ runOutputs es t = runOutputs es s

/-- The frame buffer's canonical form (assumption log 8): two buffers in it that read alike everywhere are the same
data. -/
def Obligations.CanonicalBuffersThatReadAlikeAreEqual : Prop :=
  ∀ m n : Memory, Memory.wf m → Memory.wf n → (∀ a, Memory.read m a = Memory.read n a) → m = n

/-! The Rolling Average Store (41_rolling_average.md). -/

/-- 41_rolling_average.md R152: `AVG` is the floor of a quarter of the exact sum of the four entries, and each recording
of a frame recomputes it from the whole new ring. -/
def Obligations.AverageIsTheFloorOfTheMean : Prop :=
  (∀ r : Ring, (ringAverage r).toNat = (r[0].toNat + r[1].toNat + r[2].toNat + r[3].toNat) / 4) ∧
    (∀ (r : PerChannel Reading) (s : State) (c : MeasChannel),
      (recordFrame r s).avg.get c = ringAverage ((recordFrame r s).hist.get c)) ∧
    ringAverage #v[0xFFFF#16, 0xFFFF#16, 0xFFFF#16, 0xFFFF#16] = 0xFFFF#16 ∧
    ringAverage #v[51#16, 50#16, 50#16, 50#16] = 50#16

/-- 45_foreground.md R228: `FGF` at phase 0 takes a frame that is ready, writes each channel's reading over the entry at
its cursor, advances the cursor modulo 4 and recomputes the average from the new ring; with no frame ready it changes
the phase only; at phase 1 it is refused. -/
def Obligations.FgfRecordsTheFrame : Prop :=
  (∀ s : State, s.fgPhase = 0#1 → s.frameReady = true → ∃ t, exec .fgf s = .next t ∧
    t = { s with frameReady := false, fgPhase := 1#1, hist := t.hist, histPos := t.histPos, avg := t.avg,
                 outputs := [] } ∧
    ∀ c, (∀ j : BitVec 2, ringRead (t.hist.get c) j =
          if j = s.histPos.get c then s.frameRd.get c else ringRead (s.hist.get c) j) ∧
      (t.histPos.get c).toNat = ((s.histPos.get c).toNat + 1) % 4 ∧
      (t.avg.get c).toNat = ((t.hist.get c)[0].toNat + (t.hist.get c)[1].toNat + (t.hist.get c)[2].toNat +
        (t.hist.get c)[3].toNat) / 4) ∧
  (∀ s : State, s.fgPhase = 0#1 → s.frameReady = false →
    exec .fgf s = .next { s with fgPhase := 1#1, outputs := [] }) ∧
  (∀ s : State, s.fgPhase = 1#1 → exec .fgf s = .refused .fgfNotEnabled)

/-- 41_rolling_average.md section 2: the ring of a channel that starts zero-filled, at any cursor, is a sliding window:
the average is a quarter of the sum of the last four readings, or of all there are. -/
def Obligations.RingIsASlidingWindow : Prop :=
  ∀ (rs : List (PerChannel Reading)) (s : State) (c : MeasChannel),
    (∀ j : BitVec 2, ringRead (s.hist.get c) j = 0#16) → rs ≠ [] →
    ((rs.foldl (fun u r => recordFrame r u) s).avg.get c).toNat =
      ((rs.reverse.take 4).map (fun r => (r.get c).toNat)).sum / 4

/-- 41_rolling_average.md R158: after four or more consecutive readings `v` of a channel its average is `v`, whatever the
ring held before. -/
def Obligations.ConstantInputAveragesToItself : Prop :=
  ∀ (rs : List (PerChannel Reading)) (s : State) (c : MeasChannel) (v : Reading),
    4 ≤ rs.length → (∀ r ∈ rs, r.get c = v) → (rs.foldl (fun u r => recordFrame r u) s).avg.get c = v

/-! The Threshold Indicator (42_threshold_indicator.md). -/

/-- 42_threshold_indicator.md R170: the decision is `Unsafe` above 50 and `Safe` otherwise, unsigned, on all 16 bits. -/
def Obligations.ThresholdIsAboveFifty : Prop :=
  (∀ a : Reading, threshold a = if 50 < a.toNat then .isUnsafe else .isSafe) ∧
    threshold 0#16 = .isSafe ∧ threshold 50#16 = .isSafe ∧ threshold 51#16 = .isUnsafe ∧
    threshold 99#16 = .isUnsafe ∧ threshold 100#16 = .isUnsafe ∧ threshold 65535#16 = .isUnsafe

/-- 41_rolling_average.md section 1: clamping to 99 first would not change the decision. -/
def Obligations.ClampDoesNotChangeTheDecision : Prop :=
  ∀ a : Reading, (clamp a).val = min a.toNat 99 ∧ threshold (BitVec.ofNat 16 (clamp a).val) = threshold a

/-- 30_encoding.md section 5: an `FGS` makes exactly one indicator line active, and no event but `RST` takes that away. -/
def Obligations.IndicatorStaysLit : Prop :=
  ∀ (i : Instr) (s t : State), exec i s = .next t → i ≠ .rst → (i = .fgs ∨ s.ledUnsafe = !s.ledSafe) →
    t.ledUnsafe = !t.ledSafe

/-! The Channel Selector (43_channel_selector.md). -/

/-- 43_channel_selector.md R181 and R182: an edge in `Idle` captures its line, starts the debounce and arms the timer, and
changes nothing else; in `Debouncing` it does nothing. -/
def Obligations.ButtonEdgeStartsADebounce : Prop :=
  (∀ s : State, s.debState = .idle →
    exec .btna s = .next { s with debState := .debouncing, debCand := .A, outputs := [.debStart] } ∧
    exec .btnb s = .next { s with debState := .debouncing, debCand := .B, outputs := [.debStart] }) ∧
  (∀ s : State, s.debState = .debouncing →
    exec .btna s = .next { s with outputs := [] } ∧ exec .btnb s = .next { s with outputs := [] })

/-- 43_channel_selector.md R183: an edge while debouncing changes nothing and emits nothing, so the timer is not
restarted; only the timer's expiry and `RST` end a debounce. -/
def Obligations.EdgeWhileDebouncingIsIgnored : Prop :=
  (∀ (i : Instr) (s : State), i.agent = .buttonEdge → s.debState = .debouncing →
    exec i s = .next { s with outputs := [] }) ∧
  (∀ (i : Instr) (s t : State), s.debState = .debouncing → exec i s = .next t → t.debState = .idle →
    i = .dbt ∨ i = .rst)

/-- 43_channel_selector.md section 1: in `Debouncing`, `DBT` makes the candidate the pending selection event, over
whatever was pending, and returns to `Idle`; nothing else changes. -/
def Obligations.DebounceExpiryPostsTheCandidate : Prop :=
  ∀ s : State, s.debState = .debouncing →
    exec .dbt s = .next { s with debState := .idle, selEvent := s.debCand, selPending := true, outputs := [] }

/-- 43_channel_selector.md R185: `DBT` in `Idle` has no effect and no output; it is accepted. -/
def Obligations.DebounceExpiryWhileIdleIsANoOp : Prop :=
  ∀ s : State, s.debState = .idle → exec .dbt s = .next { s with outputs := [] }

/-- 43_channel_selector.md section 2: an edge on a line in `Idle`, then anything but an expiry or a reset, then the
expiry, posts that line: later edges are dropped and the timer is armed once; a further expiry is a no-op. -/
def Obligations.EdgeThenExpiryPostsThatLine : Prop :=
  ∀ (line : Instr) (es : List Instr) (s t : State), line.agent = .buttonEdge → s.debState = .idle →
    .dbt ∉ es → .rst ∉ es → runEvents (line :: es ++ [.dbt]) s = .next t →
    t.debState = .idle ∧ t.selPending = true ∧ t.selEvent = (if line = .btna then Chan.A else Chan.B) ∧
      (runOutputs (line :: es ++ [.dbt]) s).count .debStart = 1 ∧
      exec .dbt t = .next { t with outputs := [] }

/-- 70_reset_and_hazards.md section 4: with a faithful one-shot timer, "the timer is running" stays the same as
`deb_state = Debouncing`. -/
def Obligations.FaithfulTimerRunsWhileDebouncing : Prop :=
  ∀ (i : Instr) (s t : State) (running : Bool), (running = true ↔ s.debState = .debouncing) → i ≠ .rst →
    (i = .dbt → running = true) → exec i s = .next t →
    (timerAfter i t.outputs running = true ↔ t.debState = .debouncing)

/-! The Display Encoder and Multiplexer (44_display.md). -/

/-- 44_display.md R200: `ENC` gives the decimal digits of every value from 0 to 99. -/
def Obligations.EncodeGivesDecimalDigits : Prop :=
  (∀ v : DisplayValue, (encodeBcd v).1.toNat = v.val / 10 ∧ (encodeBcd v).2.toNat = v.val % 10) ∧
    encodeBcd 0 = (0#4, 0#4) ∧ encodeBcd 9 = (0#4, 9#4) ∧ encodeBcd 10 = (1#4, 0#4) ∧ encodeBcd 47 = (4#4, 7#4) ∧
    encodeBcd 50 = (5#4, 0#4) ∧ encodeBcd 99 = (9#4, 9#4)

/-- 44_display.md section 1: the double-dabble procedure computes the same digits on the whole domain, and outside it
the 7-bit `ENC` is refused. -/
def Obligations.DoubleDabbleComputesTheDigits : Prop :=
  ∀ v : BitVec 7, encodeBcd7 v = if v.toNat ≤ 99 then some (encodeDoubleDabble v) else none

/-- 44_display.md R210: the tick toggles the index, turns both positions off, shows the digit of the new position, then
turns only that position on, in this order; nothing else changes. -/
def Obligations.MultiplexTickRendersTheNextPosition : Prop :=
  ∀ s : State,
    (s.muxIdx = 1#1 →
      exec .muxt s = .next { s with muxIdx := 0#1, segBcd := s.digTens, digitEn := 0b01#2,
                                    outputs := [.digitEn 0b00#2, .segBcd s.digTens, .digitEn 0b01#2] }) ∧
    (s.muxIdx = 0#1 →
      exec .muxt s = .next { s with muxIdx := 1#1, segBcd := s.digUnits, digitEn := 0b10#2,
                                    outputs := [.digitEn 0b00#2, .segBcd s.digUnits, .digitEn 0b10#2] })

/-- 44_display.md section 3: from a state with at most one position on, the recorded pairs of every event are
break-before-make, and they end at the registers' values. For `RST` this rests on the order of its output list, `digit_en`
before `seg_bcd`, which is the model's choice (assumption log 5). -/
def Obligations.OutputsBreakBeforeMake : Prop :=
  ∀ (i : Instr) (s t : State), s.digitEn ≠ 0b11#2 → exec i s = .next t →
    (recordedPairs (s.digitEn, s.segBcd) t.outputs).IsChain (breakBeforeMake s.digTens s.digUnits) ∧
      (recordedPairs (s.digitEn, s.segBcd) t.outputs).getLast? = some (t.digitEn, t.segBcd)

/-- 44_display.md section 3: successive ticks alternate between the two positions, whatever other events but `RST` fall
between them. -/
def Obligations.TicksAlternatePositions : Prop :=
  ∀ (es : List Instr) (s t u v : State), exec .muxt s = .next t → .muxt ∉ es → .rst ∉ es →
    runEvents es t = .next u → exec .muxt u = .next v →
    t.muxIdx ≠ s.muxIdx ∧ v.muxIdx = s.muxIdx ∧ u.digitEn = t.digitEn ∧
      ((t.digitEn = 0b01#2 ∧ v.digitEn = 0b10#2) ∨ (t.digitEn = 0b10#2 ∧ v.digitEn = 0b01#2))

/-- 44_display.md section 3 (ownership): no event but `MUXT` and `RST` reads or writes the multiplexer's registers: put
other values into them and the event does the same and leaves them. -/
def Obligations.OnlyTheTickTouchesTheMultiplexer : Prop :=
  ∀ (i : Instr) (s t : State) (x : BitVec 1) (e : BitVec 2) (d : Bcd), i ≠ .muxt → i ≠ .rst → exec i s = .next t →
    exec i { s with muxIdx := x, digitEn := e, segBcd := d } = .next { t with muxIdx := x, digitEn := e, segBcd := d }

/-! The foreground loop (45_foreground.md). -/

/-- 45_foreground.md R230: `FGS` at phase 1 takes a pending selection and clears it, then shows the selected channel's
average, clamped to 99, and its decision, unclamped, whether or not an event was pending; at phase 0 it is refused. -/
def Obligations.FgsAppliesTheSelectionAndRefreshes : Prop :=
  (∀ (s : State) (sel : Chan) (a : Nat), s.fgPhase = 1#1 →
    sel = (if s.selPending = true then s.selEvent else s.selection) →
    a = (s.avg.get (if sel = .A then Config.selACh else Config.selBCh)).toNat →
    exec .fgs s = .next { s with selection := sel, selPending := false,
                                 digTens := BitVec.ofNat 4 (min a 99 / 10), digUnits := BitVec.ofNat 4 (min a 99 % 10),
                                 ledSafe := decide (a ≤ 50), ledUnsafe := decide (50 < a), fgPhase := 0#1,
                                 outputs := [.leds (decide (a ≤ 50)) (decide (50 < a))] }) ∧
  (∀ s : State, s.fgPhase = 0#1 → exec .fgs s = .refused .fgsNotEnabled)

/-- 45_foreground.md section 2: when a frame and a selection are both pending, a pass ends with the new channel's new
average at the outputs. -/
def Obligations.PassShowsTheNewChannelsNewAverage : Prop :=
  ∀ (s : State) (c : MeasChannel) (ring : Ring) (a : Nat), s.fgPhase = 0#1 → s.frameReady = true →
    s.selPending = true → c = selectedChannel s.selEvent →
    ring = (s.hist.get c).set (s.histPos.get c).toNat (s.frameRd.get c) (s.histPos.get c).isLt →
    a = (ring[0].toNat + ring[1].toNat + ring[2].toNat + ring[3].toNat) / 4 →
    ∃ t, runEvents passEvents s = .next t ∧ t.selection = s.selEvent ∧ t.frameReady = false ∧ t.selPending = false ∧
      (t.avg.get c).toNat = a ∧ 10 * t.digTens.toNat + t.digUnits.toNat = min a 99 ∧
      t.ledUnsafe = decide (50 < a) ∧ t.ledSafe = decide (a ≤ 50) ∧ t.fgPhase = 0#1

/-! Rules over all events. -/

/-- 10_state.md R44: when the two flags are set and cleared. -/
def Obligations.FlagsAreSetAndClearedAsStated : Prop :=
  (∀ (i : Instr) (s t : State), exec i s = .next t →
    (t.frameReady = true ↔ (∃ b, i = .rxb b ∧ validates b s) ∨ (s.frameReady = true ∧ i ≠ .fgf ∧ i ≠ .rst)) ∧
    (t.selPending = true ↔ (i = .dbt ∧ s.debState = .debouncing) ∨ (s.selPending = true ∧ i ≠ .fgs ∧ i ≠ .rst))) ∧
  State.reset.frameReady = false ∧ State.reset.selPending = false

/-- 60_exceptions.md section 3: which agent may write which variable. -/
def Obligations.AgentsWriteOnlyWhatTheyOwn : Prop :=
  ∀ (i : Instr) (s t : State), exec i s = .next t → i ≠ .rst →
    (i.agent ≠ .serial → sameReceiver s t) ∧
    (i.agent ≠ .serial → t.frameRd = s.frameRd ∧ (i ≠ .fgf → sameMailbox s t)) ∧
    (i ≠ .fgf → sameStore s t) ∧
    (i.agent ≠ .buttonEdge → t.debCand = s.debCand ∧ (i.agent ≠ .debounceTimer → sameDebounce s t)) ∧
    (i.agent ≠ .debounceTimer → t.selEvent = s.selEvent ∧ (i ≠ .fgs → sameSelEvent s t)) ∧
    (i ≠ .fgs → sameSelection s t ∧ sameDigits s t ∧ sameLeds s t) ∧
    (i.agent ≠ .multiplexTimer → sameMultiplexer s t) ∧
    (i.agent ≠ .foreground → samePhase s t) ∧
    t.schedule = s.schedule ∧ t.arrivals = s.arrivals

/-- 10_state.md R24: no foreground step and no other interrupt handler reads or writes the receiver's buffer or cursor:
put other values into them and the event does the same and leaves them. -/
def Obligations.OnlyTheSerialInterruptTouchesTheReceiver : Prop :=
  ∀ (i : Instr) (s t : State) (m : Memory) (p : BitVec 5), i.agent ≠ .serial → i ≠ .rst → exec i s = .next t →
    exec i { s with rxBuf := m, rxPos := p } = .next { t with rxBuf := m, rxPos := p }

/-- 20_memory.md section 6: two adjacent steps of different agents may be swapped, with the same final state and the
same output list of each, except where the order matters. -/
def Obligations.IndependentStepsCommute : Prop :=
  ∀ (i j : Instr) (s u v : State), i.agent ≠ j.agent → i ≠ .rst → j ≠ .rst → ¬orderMatters i j s →
    exec i s = .next u → exec j u = .next v →
    ∃ u' v', exec j s = .next u' ∧ exec i u' = .next v' ∧ v' = { v with outputs := u.outputs } ∧
      u'.outputs = v.outputs

/-- 93_implementation_defined.md U4: the fields that mean nothing where they stand are read by nothing: two states that
differ only in them give the same outputs and such states again, under every sequence of events. -/
def Obligations.DontCareFieldsAreUnobservable : Prop :=
  ∀ (es : List Instr) (s t s' : State), sameButDontCares s t → runEvents es s = .next s' →
    (∃ t', runEvents es t = .next t' ∧ sameButDontCares s' t') ∧ runOutputs es t = runOutputs es s

/-! Infinite executions and fairness (45_foreground.md section 4). -/

/-- From every state with nothing scheduled the steps go on for ever, none refused. That each of them runs an event, an
arrival or the foreground's own turn, so that the core never rests, is the model's choice (assumption logs 2, 29). -/
def Obligations.StepRunsIndefinitely : Prop :=
  ∀ s : State, s.schedule = [] → ∃ st : Nat → State, st 0 = s ∧ ∀ n, step (st n) = .next (st (n + 1))

/-- 20_memory.md section 4: every run of the step is an interleaving of events. -/
def Obligations.RunsOfStepAreInterleavings : Prop :=
  ∀ st : Nat → State, (∀ n, step (st n) = .next (st (n + 1))) → ∃ ev : Nat → Instr, InfiniteRun ev st

/-- 20_memory.md section 4: no schedule is fixed: an infinite sequence of events is a run from a state exactly when its
foreground events alternate from the state's phase, whether or not it is fair. -/
def Obligations.EveryInfiniteInterleavingIsARun : Prop :=
  ∀ (ev : Nat → Instr) (s : State),
    (∃ st : Nat → State, st 0 = s ∧ InfiniteRun ev st) ↔ ∀ n, alternates s.fgPhase ((List.range n).map ev)

/-- 45_foreground.md section 4 (progress): a foreground step may be delayed past any number of interrupt steps, even for
ever: every endless sequence of interrupts is a run from every state, and in it a frame and a press that are pending stay
pending, and nothing the foreground owns changes. -/
def Obligations.InterruptsCanDelayTheForegroundForEver : Prop :=
  ∀ (ev : Nat → Instr) (s : State), (∀ n, (ev n).agent ≠ .foreground ∧ ev n ≠ .rst) →
    ∃ st : Nat → State, st 0 = s ∧ InfiniteRun ev st ∧
      ∀ n, (s.frameReady = true → (st n).frameReady = true) ∧ (s.selPending = true → (st n).selPending = true) ∧
        sameStore s (st n) ∧ sameSelection s (st n) ∧ sameDigits s (st n) ∧ sameLeds s (st n) ∧ samePhase s (st n)

/-- 45_foreground.md section 4 (progress): if the foreground steps again and again and no reset comes, a frame that is
ready is averaged by the next `FGF`; it is the same frame unless a newer one was validated before. -/
def Obligations.FairForegroundAveragesAReadyFrame : Prop :=
  ∀ (ev : Nat → Instr) (st : Nat → State) (n : Nat), InfiniteRun ev st → ForegroundFair ev →
    (∀ m, n ≤ m → ev m ≠ .rst) → (st n).frameReady = true →
    ∃ m, n ≤ m ∧ ev m = .fgf ∧ (∀ k, n ≤ k → k < m → ev k ≠ .fgf) ∧
      (st m).frameReady = true ∧ (st (m + 1)).frameReady = false ∧ sameStore (st n) (st m) ∧
      (∀ c, (∀ j : BitVec 2, ringRead ((st (m + 1)).hist.get c) j =
            if j = (st m).histPos.get c then (st m).frameRd.get c else ringRead ((st m).hist.get c) j) ∧
        (st (m + 1)).avg.get c = ringAverage ((st (m + 1)).hist.get c)) ∧
      ((∀ k b, n ≤ k → k < m → ev k = .rxb b → ¬validates b (st k)) → (st m).frameRd = (st n).frameRd)

/-- 45_foreground.md section 4 (progress): if the foreground steps again and again and no reset comes, a debounced press
that is pending takes effect at the next `FGS`; it is the same press unless a newer debounce completed before. -/
def Obligations.FairForegroundAppliesAPendingPress : Prop :=
  ∀ (ev : Nat → Instr) (st : Nat → State) (n : Nat), InfiniteRun ev st → ForegroundFair ev →
    (∀ m, n ≤ m → ev m ≠ .rst) → (st n).selPending = true →
    ∃ m, n ≤ m ∧ ev m = .fgs ∧ (∀ k, n ≤ k → k < m → ev k ≠ .fgs) ∧
      (st (m + 1)).selection = (st m).selEvent ∧ (st (m + 1)).selPending = false ∧
      10 * (st (m + 1)).digTens.toNat + (st (m + 1)).digUnits.toNat =
        min ((st m).avg.get (selectedChannel (st m).selEvent)).toNat 99 ∧
      ((∀ k, n ≤ k → k < m → ev k ≠ .dbt) → (st m).selEvent = (st n).selEvent)

/-- 70_reset_and_hazards.md section 4: if the ticks come again and again and no reset comes, each of the two digits is
rendered again and again, at its own position and with the value it has at the tick. -/
def Obligations.FairTicksRenderBothDigits : Prop :=
  ∀ (ev : Nat → Instr) (st : Nat → State) (n : Nat) (x : BitVec 1), InfiniteRun ev st → TickFair ev →
    (∀ m, n ≤ m → ev m ≠ .rst) →
    ∃ m, n ≤ m ∧ ev m = .muxt ∧ (st (m + 1)).muxIdx = x ∧
      (st (m + 1)).digitEn = (if x = 0#1 then 0b01#2 else 0b10#2) ∧
      (st (m + 1)).segBcd = if x = 0#1 then (st m).digTens else (st m).digUnits
end

