-- ==== Sys2Proof/Laws/Codec.lean ====
section
/-!
SUPPORT. The fields of an event word, and what the decoder answers for the two formats (30_encoding.md R101, R102).
-/

namespace Sys2Proof

/-- The type of the operand says what well-formedness asks (30_encoding.md R105). -/
theorem wellFormed_all (i : Instr) : i.wellFormed = true := by
  cases i with
  | rxb b => exact decide_eq_true (Nat.lt_succ_iff.1 b.isLt)
  | _ => rfl

/-- Bit `i` of an event word: of its data below 8, of its kind above. -/
theorem getLsbD_eventWord (kind : BitVec 4) (data : Byte) (i : Nat) :
    (eventWord kind data).getLsbD i = if i < 8 then data.getLsbD i else kind.getLsbD (i - 8) :=
  (BitVec.getLsbD_append (x := kind) (y := data)).trans (by split <;> simp_all)

@[simp] theorem eventKind_eventWord (kind : BitVec 4) (data : Byte) : eventKind (eventWord kind data) = kind := by
  apply BitVec.eq_of_getLsbD_eq
  intro i hi
  simp [eventKind, getLsbD_eventWord, hi]

@[simp] theorem eventData_eventWord (kind : BitVec 4) (data : Byte) : eventData (eventWord kind data) = data := by
  apply BitVec.eq_of_getLsbD_eq
  intro i hi
  simp [eventData, getLsbD_eventWord, hi]

/-- A word is its two fields. -/
theorem eventWord_fields (w : EventWord) : eventWord (eventKind w) (eventData w) = w := by
  apply BitVec.eq_of_getLsbD_eq
  intro i hi
  rw [getLsbD_eventWord]
  simp only [eventKind, eventData, BitVec.getLsbD_extractLsb', Nat.zero_add]
  split
  · next h => simp [h]
  · next h => simp [show i - 8 < 4 by omega, show 8 + (i - 8) = i by omega]

/-- Format `EV0` accepts zero data only. -/
theorem decodeEv0_ok {i j : Instr} {w : EventWord} : decodeEv0 i w = .ok j ↔ eventData w = 0#8 ∧ i = j := by
  unfold decodeEv0
  split <;> simp_all

end Sys2Proof
end

