-- ==== Sys2Proof/Laws/Memory.lean ====
section
/-!
SUPPORT. The frame buffer: a read after a write, and the canonical form that every operation keeps.
-/

namespace Sys2Proof.Machine

@[simp] theorem read_nil (a : Nat) : Memory.read [] a = 0x00#8 := rfl

theorem read_place (m : Memory) (a a' : Nat) (v : Byte) :
    Memory.read (Memory.place m a v) a' = if a' = a then v else Memory.read m a' := by
  induction m with
  | nil => simp only [Memory.place, Memory.read, eq_comm]
  | cons c m ih =>
    obtain ⟨b, u⟩ := c
    simp only [Memory.place]
    split
    · simp only [Memory.read, eq_comm]
    · split <;> simp only [Memory.read, ih] <;> split_ifs <;> first | rfl | omega

theorem read_drop (m : Memory) (a a' : Nat) :
    Memory.read (Memory.drop m a) a' = if a' = a then fbUnlisted else Memory.read m a' := by
  induction m with
  | nil => simp only [Memory.drop, Memory.read]; split_ifs <;> rfl
  | cons c m ih =>
    obtain ⟨b, u⟩ := c
    simp only [Memory.drop]
    split <;> simp only [Memory.read, ih] <;> split_ifs <;> first | rfl | omega

/-- A read after a write: the value written at its address, the old value at every other. -/
theorem read_write (m : Memory) (a a' : Nat) (v : Byte) :
    Memory.read (Memory.write m a v) a' = if a' = a then v else Memory.read m a' := by
  unfold Memory.write
  split
  · next h => rw [read_drop, h]
  · exact read_place m a a' v

@[simp] theorem read_write_same (m : Memory) (a : Nat) (v : Byte) : Memory.read (Memory.write m a v) a = v := by
  simp [read_write]

@[simp] theorem read_write_other (m : Memory) {a a' : Nat} (v : Byte) (h : a' ≠ a) :
    Memory.read (Memory.write m a v) a' = Memory.read m a' := by
  simp [read_write, h]

theorem mem_place {m : Memory} {a : Nat} {v : Byte} {c : Host.Cell} (h : c ∈ Memory.place m a v) :
    c = (a, v) ∨ c ∈ m := by
  induction m with
  | nil => simpa [Memory.place] using h
  | cons d m ih =>
    obtain ⟨b, u⟩ := d
    simp only [Memory.place] at h
    split at h
    · simpa using h
    · split at h
      · rcases List.mem_cons.1 h with h | h
        · exact .inl h
        · exact .inr (List.mem_cons_of_mem _ h)
      · rcases List.mem_cons.1 h with h | h
        · exact .inr (h ▸ List.mem_cons_self)
        · exact (ih h).imp_right (List.mem_cons_of_mem _)

theorem mem_drop {m : Memory} {a : Nat} {c : Host.Cell} (h : c ∈ Memory.drop m a) : c ∈ m := by
  induction m with
  | nil => simp [Memory.drop] at h
  | cons d m ih =>
    obtain ⟨b, u⟩ := d
    simp only [Memory.drop] at h
    split at h
    · exact List.mem_cons_of_mem _ (ih h)
    · rcases List.mem_cons.1 h with h | h
      · exact h ▸ List.mem_cons_self
      · exact List.mem_cons_of_mem _ (ih h)

theorem pairwise_place {m : Memory} (a : Nat) (v : Byte) (h : m.Pairwise (fun x y => x.1 < y.1)) :
    (Memory.place m a v).Pairwise (fun x y => x.1 < y.1) := by
  induction m with
  | nil => simp [Memory.place]
  | cons d m ih =>
    obtain ⟨b, u⟩ := d
    obtain ⟨hd, hm⟩ := List.pairwise_cons.1 h
    simp only [Memory.place]
    split
    · next hab =>
      refine List.pairwise_cons.2 ⟨fun c hc => ?_, h⟩
      rcases List.mem_cons.1 hc with rfl | hc
      · exact hab
      · exact lt_trans hab (hd c hc)
    · split
      · next hab => exact List.pairwise_cons.2 ⟨fun c hc => hab ▸ hd c hc, hm⟩
      · next h1 h2 =>
        refine List.pairwise_cons.2 ⟨fun c hc => ?_, ih hm⟩
        rcases mem_place hc with rfl | hc
        · simp only; omega
        · exact hd c hc

theorem pairwise_drop {m : Memory} (a : Nat) (h : m.Pairwise (fun x y => x.1 < y.1)) :
    (Memory.drop m a).Pairwise (fun x y => x.1 < y.1) := by
  induction m with
  | nil => simp [Memory.drop]
  | cons d m ih =>
    obtain ⟨b, u⟩ := d
    obtain ⟨hd, hm⟩ := List.pairwise_cons.1 h
    simp only [Memory.drop]
    split
    · exact ih hm
    · exact List.pairwise_cons.2 ⟨fun c hc => hd c (mem_drop hc), ih hm⟩

theorem wf_nil : Memory.wf [] := by simp [Memory.wf]

/-- A write inside the space keeps the canonical form. -/
theorem wf_write {m : Memory} {a : Nat} (v : Byte) (ha : a < Config.frameLen) (h : Memory.wf m) :
    Memory.wf (Memory.write m a v) := by
  unfold Memory.write
  split
  · exact ⟨pairwise_drop a h.1, fun c hc => h.2 c (mem_drop hc)⟩
  · next hv =>
    refine ⟨pairwise_place a v h.1, fun c hc => ?_⟩
    rcases mem_place hc with rfl | hc
    · exact ⟨ha, hv⟩
    · exact h.2 c hc

theorem wf_setFb {s : State} {a : Nat} (v : Byte) (ha : a < Config.frameLen) (h : Memory.wf s.rxBuf) :
    Memory.wf (s.setFb a v).rxBuf := wf_write v ha h

theorem wf_clearFb (s : State) : Memory.wf s.clearFb.rxBuf := wf_nil

theorem wf_reset : Memory.wf State.reset.rxBuf := wf_nil

/-! The same through the state's own read and write. -/

theorem fb_setFb (s : State) (a a' : Nat) (v : Byte) :
    (s.setFb a v).fb a' = if a' = a then v else s.fb a' := read_write s.rxBuf a a' v

@[simp] theorem fb_clearFb (s : State) (a : Nat) : s.clearFb.fb a = 0x00#8 := rfl

@[simp] theorem fb_reset (a : Nat) : State.reset.fb a = 0x00#8 := rfl

end Sys2Proof.Machine
end

