-- ==== Sys2Proof/Laws/State.lean ====
section
/-!
SUPPORT. What each named update of the state does to each field: one lemma per field and update, so that no later proof
unfolds a record update.
-/

namespace Sys2Proof.Machine

variable (s : State)

/-! `setFb` -/

@[simp] theorem setFb_rxBuf (a : Nat) (v : Byte) : (s.setFb a v).rxBuf = Memory.write s.rxBuf a v := rfl
@[simp] theorem setFb_rxPos (a : Nat) (v : Byte) : (s.setFb a v).rxPos = s.rxPos := rfl
@[simp] theorem setFb_frameReady (a : Nat) (v : Byte) : (s.setFb a v).frameReady = s.frameReady := rfl
@[simp] theorem setFb_frameRd (a : Nat) (v : Byte) : (s.setFb a v).frameRd = s.frameRd := rfl
@[simp] theorem setFb_hist (a : Nat) (v : Byte) : (s.setFb a v).hist = s.hist := rfl
@[simp] theorem setFb_histPos (a : Nat) (v : Byte) : (s.setFb a v).histPos = s.histPos := rfl
@[simp] theorem setFb_avg (a : Nat) (v : Byte) : (s.setFb a v).avg = s.avg := rfl
@[simp] theorem setFb_debState (a : Nat) (v : Byte) : (s.setFb a v).debState = s.debState := rfl
@[simp] theorem setFb_debCand (a : Nat) (v : Byte) : (s.setFb a v).debCand = s.debCand := rfl
@[simp] theorem setFb_selPending (a : Nat) (v : Byte) : (s.setFb a v).selPending = s.selPending := rfl
@[simp] theorem setFb_selEvent (a : Nat) (v : Byte) : (s.setFb a v).selEvent = s.selEvent := rfl
@[simp] theorem setFb_selection (a : Nat) (v : Byte) : (s.setFb a v).selection = s.selection := rfl
@[simp] theorem setFb_digTens (a : Nat) (v : Byte) : (s.setFb a v).digTens = s.digTens := rfl
@[simp] theorem setFb_digUnits (a : Nat) (v : Byte) : (s.setFb a v).digUnits = s.digUnits := rfl
@[simp] theorem setFb_muxIdx (a : Nat) (v : Byte) : (s.setFb a v).muxIdx = s.muxIdx := rfl
@[simp] theorem setFb_digitEn (a : Nat) (v : Byte) : (s.setFb a v).digitEn = s.digitEn := rfl
@[simp] theorem setFb_segBcd (a : Nat) (v : Byte) : (s.setFb a v).segBcd = s.segBcd := rfl
@[simp] theorem setFb_ledSafe (a : Nat) (v : Byte) : (s.setFb a v).ledSafe = s.ledSafe := rfl
@[simp] theorem setFb_ledUnsafe (a : Nat) (v : Byte) : (s.setFb a v).ledUnsafe = s.ledUnsafe := rfl
@[simp] theorem setFb_fgPhase (a : Nat) (v : Byte) : (s.setFb a v).fgPhase = s.fgPhase := rfl
@[simp] theorem setFb_schedule (a : Nat) (v : Byte) : (s.setFb a v).schedule = s.schedule := rfl
@[simp] theorem setFb_arrivals (a : Nat) (v : Byte) : (s.setFb a v).arrivals = s.arrivals := rfl
@[simp] theorem setFb_outputs (a : Nat) (v : Byte) : (s.setFb a v).outputs = s.outputs := rfl

/-! `clearFb` -/

@[simp] theorem clearFb_rxBuf : (s.clearFb).rxBuf = [] := rfl
@[simp] theorem clearFb_rxPos : (s.clearFb).rxPos = s.rxPos := rfl
@[simp] theorem clearFb_frameReady : (s.clearFb).frameReady = s.frameReady := rfl
@[simp] theorem clearFb_frameRd : (s.clearFb).frameRd = s.frameRd := rfl
@[simp] theorem clearFb_hist : (s.clearFb).hist = s.hist := rfl
@[simp] theorem clearFb_histPos : (s.clearFb).histPos = s.histPos := rfl
@[simp] theorem clearFb_avg : (s.clearFb).avg = s.avg := rfl
@[simp] theorem clearFb_debState : (s.clearFb).debState = s.debState := rfl
@[simp] theorem clearFb_debCand : (s.clearFb).debCand = s.debCand := rfl
@[simp] theorem clearFb_selPending : (s.clearFb).selPending = s.selPending := rfl
@[simp] theorem clearFb_selEvent : (s.clearFb).selEvent = s.selEvent := rfl
@[simp] theorem clearFb_selection : (s.clearFb).selection = s.selection := rfl
@[simp] theorem clearFb_digTens : (s.clearFb).digTens = s.digTens := rfl
@[simp] theorem clearFb_digUnits : (s.clearFb).digUnits = s.digUnits := rfl
@[simp] theorem clearFb_muxIdx : (s.clearFb).muxIdx = s.muxIdx := rfl
@[simp] theorem clearFb_digitEn : (s.clearFb).digitEn = s.digitEn := rfl
@[simp] theorem clearFb_segBcd : (s.clearFb).segBcd = s.segBcd := rfl
@[simp] theorem clearFb_ledSafe : (s.clearFb).ledSafe = s.ledSafe := rfl
@[simp] theorem clearFb_ledUnsafe : (s.clearFb).ledUnsafe = s.ledUnsafe := rfl
@[simp] theorem clearFb_fgPhase : (s.clearFb).fgPhase = s.fgPhase := rfl
@[simp] theorem clearFb_schedule : (s.clearFb).schedule = s.schedule := rfl
@[simp] theorem clearFb_arrivals : (s.clearFb).arrivals = s.arrivals := rfl
@[simp] theorem clearFb_outputs : (s.clearFb).outputs = s.outputs := rfl

/-! `beginStep` -/

@[simp] theorem beginStep_rxBuf : (beginStep s).rxBuf = s.rxBuf := rfl
@[simp] theorem beginStep_rxPos : (beginStep s).rxPos = s.rxPos := rfl
@[simp] theorem beginStep_frameReady : (beginStep s).frameReady = s.frameReady := rfl
@[simp] theorem beginStep_frameRd : (beginStep s).frameRd = s.frameRd := rfl
@[simp] theorem beginStep_hist : (beginStep s).hist = s.hist := rfl
@[simp] theorem beginStep_histPos : (beginStep s).histPos = s.histPos := rfl
@[simp] theorem beginStep_avg : (beginStep s).avg = s.avg := rfl
@[simp] theorem beginStep_debState : (beginStep s).debState = s.debState := rfl
@[simp] theorem beginStep_debCand : (beginStep s).debCand = s.debCand := rfl
@[simp] theorem beginStep_selPending : (beginStep s).selPending = s.selPending := rfl
@[simp] theorem beginStep_selEvent : (beginStep s).selEvent = s.selEvent := rfl
@[simp] theorem beginStep_selection : (beginStep s).selection = s.selection := rfl
@[simp] theorem beginStep_digTens : (beginStep s).digTens = s.digTens := rfl
@[simp] theorem beginStep_digUnits : (beginStep s).digUnits = s.digUnits := rfl
@[simp] theorem beginStep_muxIdx : (beginStep s).muxIdx = s.muxIdx := rfl
@[simp] theorem beginStep_digitEn : (beginStep s).digitEn = s.digitEn := rfl
@[simp] theorem beginStep_segBcd : (beginStep s).segBcd = s.segBcd := rfl
@[simp] theorem beginStep_ledSafe : (beginStep s).ledSafe = s.ledSafe := rfl
@[simp] theorem beginStep_ledUnsafe : (beginStep s).ledUnsafe = s.ledUnsafe := rfl
@[simp] theorem beginStep_fgPhase : (beginStep s).fgPhase = s.fgPhase := rfl
@[simp] theorem beginStep_schedule : (beginStep s).schedule = s.schedule := rfl
@[simp] theorem beginStep_arrivals : (beginStep s).arrivals = s.arrivals := rfl
@[simp] theorem beginStep_outputs : (beginStep s).outputs = [] := rfl

/-! `storeByte` -/

@[simp] theorem storeByte_rxBuf (b : Byte) : (storeByte b s).rxBuf = Memory.write s.rxBuf s.rxPos.toNat b := rfl
@[simp] theorem storeByte_rxPos (b : Byte) : (storeByte b s).rxPos = s.rxPos + 1#5 := rfl
@[simp] theorem storeByte_frameReady (b : Byte) : (storeByte b s).frameReady = s.frameReady := rfl
@[simp] theorem storeByte_frameRd (b : Byte) : (storeByte b s).frameRd = s.frameRd := rfl
@[simp] theorem storeByte_hist (b : Byte) : (storeByte b s).hist = s.hist := rfl
@[simp] theorem storeByte_histPos (b : Byte) : (storeByte b s).histPos = s.histPos := rfl
@[simp] theorem storeByte_avg (b : Byte) : (storeByte b s).avg = s.avg := rfl
@[simp] theorem storeByte_debState (b : Byte) : (storeByte b s).debState = s.debState := rfl
@[simp] theorem storeByte_debCand (b : Byte) : (storeByte b s).debCand = s.debCand := rfl
@[simp] theorem storeByte_selPending (b : Byte) : (storeByte b s).selPending = s.selPending := rfl
@[simp] theorem storeByte_selEvent (b : Byte) : (storeByte b s).selEvent = s.selEvent := rfl
@[simp] theorem storeByte_selection (b : Byte) : (storeByte b s).selection = s.selection := rfl
@[simp] theorem storeByte_digTens (b : Byte) : (storeByte b s).digTens = s.digTens := rfl
@[simp] theorem storeByte_digUnits (b : Byte) : (storeByte b s).digUnits = s.digUnits := rfl
@[simp] theorem storeByte_muxIdx (b : Byte) : (storeByte b s).muxIdx = s.muxIdx := rfl
@[simp] theorem storeByte_digitEn (b : Byte) : (storeByte b s).digitEn = s.digitEn := rfl
@[simp] theorem storeByte_segBcd (b : Byte) : (storeByte b s).segBcd = s.segBcd := rfl
@[simp] theorem storeByte_ledSafe (b : Byte) : (storeByte b s).ledSafe = s.ledSafe := rfl
@[simp] theorem storeByte_ledUnsafe (b : Byte) : (storeByte b s).ledUnsafe = s.ledUnsafe := rfl
@[simp] theorem storeByte_fgPhase (b : Byte) : (storeByte b s).fgPhase = s.fgPhase := rfl
@[simp] theorem storeByte_schedule (b : Byte) : (storeByte b s).schedule = s.schedule := rfl
@[simp] theorem storeByte_arrivals (b : Byte) : (storeByte b s).arrivals = s.arrivals := rfl
@[simp] theorem storeByte_outputs (b : Byte) : (storeByte b s).outputs = s.outputs := rfl

/-! `desync` -/

@[simp] theorem desync_rxBuf : (desync s).rxBuf = [] := rfl
@[simp] theorem desync_rxPos : (desync s).rxPos = 0#5 := rfl
@[simp] theorem desync_frameReady : (desync s).frameReady = s.frameReady := rfl
@[simp] theorem desync_frameRd : (desync s).frameRd = s.frameRd := rfl
@[simp] theorem desync_hist : (desync s).hist = s.hist := rfl
@[simp] theorem desync_histPos : (desync s).histPos = s.histPos := rfl
@[simp] theorem desync_avg : (desync s).avg = s.avg := rfl
@[simp] theorem desync_debState : (desync s).debState = s.debState := rfl
@[simp] theorem desync_debCand : (desync s).debCand = s.debCand := rfl
@[simp] theorem desync_selPending : (desync s).selPending = s.selPending := rfl
@[simp] theorem desync_selEvent : (desync s).selEvent = s.selEvent := rfl
@[simp] theorem desync_selection : (desync s).selection = s.selection := rfl
@[simp] theorem desync_digTens : (desync s).digTens = s.digTens := rfl
@[simp] theorem desync_digUnits : (desync s).digUnits = s.digUnits := rfl
@[simp] theorem desync_muxIdx : (desync s).muxIdx = s.muxIdx := rfl
@[simp] theorem desync_digitEn : (desync s).digitEn = s.digitEn := rfl
@[simp] theorem desync_segBcd : (desync s).segBcd = s.segBcd := rfl
@[simp] theorem desync_ledSafe : (desync s).ledSafe = s.ledSafe := rfl
@[simp] theorem desync_ledUnsafe : (desync s).ledUnsafe = s.ledUnsafe := rfl
@[simp] theorem desync_fgPhase : (desync s).fgPhase = s.fgPhase := rfl
@[simp] theorem desync_schedule : (desync s).schedule = s.schedule := rfl
@[simp] theorem desync_arrivals : (desync s).arrivals = s.arrivals := rfl
@[simp] theorem desync_outputs : (desync s).outputs = s.outputs := rfl

/-! `closeFrame` -/

@[simp] theorem closeFrame_rxBuf : (closeFrame s).rxBuf = Memory.write (Memory.write s.rxBuf 0 0x00#8) 31 0x00#8 := rfl
@[simp] theorem closeFrame_rxPos : (closeFrame s).rxPos = 0#5 := rfl
@[simp] theorem closeFrame_frameReady : (closeFrame s).frameReady = s.frameReady := rfl
@[simp] theorem closeFrame_frameRd : (closeFrame s).frameRd = s.frameRd := rfl
@[simp] theorem closeFrame_hist : (closeFrame s).hist = s.hist := rfl
@[simp] theorem closeFrame_histPos : (closeFrame s).histPos = s.histPos := rfl
@[simp] theorem closeFrame_avg : (closeFrame s).avg = s.avg := rfl
@[simp] theorem closeFrame_debState : (closeFrame s).debState = s.debState := rfl
@[simp] theorem closeFrame_debCand : (closeFrame s).debCand = s.debCand := rfl
@[simp] theorem closeFrame_selPending : (closeFrame s).selPending = s.selPending := rfl
@[simp] theorem closeFrame_selEvent : (closeFrame s).selEvent = s.selEvent := rfl
@[simp] theorem closeFrame_selection : (closeFrame s).selection = s.selection := rfl
@[simp] theorem closeFrame_digTens : (closeFrame s).digTens = s.digTens := rfl
@[simp] theorem closeFrame_digUnits : (closeFrame s).digUnits = s.digUnits := rfl
@[simp] theorem closeFrame_muxIdx : (closeFrame s).muxIdx = s.muxIdx := rfl
@[simp] theorem closeFrame_digitEn : (closeFrame s).digitEn = s.digitEn := rfl
@[simp] theorem closeFrame_segBcd : (closeFrame s).segBcd = s.segBcd := rfl
@[simp] theorem closeFrame_ledSafe : (closeFrame s).ledSafe = s.ledSafe := rfl
@[simp] theorem closeFrame_ledUnsafe : (closeFrame s).ledUnsafe = s.ledUnsafe := rfl
@[simp] theorem closeFrame_fgPhase : (closeFrame s).fgPhase = s.fgPhase := rfl
@[simp] theorem closeFrame_schedule : (closeFrame s).schedule = s.schedule := rfl
@[simp] theorem closeFrame_arrivals : (closeFrame s).arrivals = s.arrivals := rfl
@[simp] theorem closeFrame_outputs : (closeFrame s).outputs = s.outputs := rfl

/-! `publishReadings` -/

@[simp] theorem publishReadings_rxBuf (r : PerChannel Reading) : (publishReadings r s).rxBuf = s.rxBuf := rfl
@[simp] theorem publishReadings_rxPos (r : PerChannel Reading) : (publishReadings r s).rxPos = s.rxPos := rfl
@[simp] theorem publishReadings_frameReady (r : PerChannel Reading) : (publishReadings r s).frameReady = true := rfl
@[simp] theorem publishReadings_frameRd (r : PerChannel Reading) : (publishReadings r s).frameRd = r := rfl
@[simp] theorem publishReadings_hist (r : PerChannel Reading) : (publishReadings r s).hist = s.hist := rfl
@[simp] theorem publishReadings_histPos (r : PerChannel Reading) : (publishReadings r s).histPos = s.histPos := rfl
@[simp] theorem publishReadings_avg (r : PerChannel Reading) : (publishReadings r s).avg = s.avg := rfl
@[simp] theorem publishReadings_debState (r : PerChannel Reading) : (publishReadings r s).debState = s.debState := rfl
@[simp] theorem publishReadings_debCand (r : PerChannel Reading) : (publishReadings r s).debCand = s.debCand := rfl
@[simp] theorem publishReadings_selPending (r : PerChannel Reading) : (publishReadings r s).selPending = s.selPending := rfl
@[simp] theorem publishReadings_selEvent (r : PerChannel Reading) : (publishReadings r s).selEvent = s.selEvent := rfl
@[simp] theorem publishReadings_selection (r : PerChannel Reading) : (publishReadings r s).selection = s.selection := rfl
@[simp] theorem publishReadings_digTens (r : PerChannel Reading) : (publishReadings r s).digTens = s.digTens := rfl
@[simp] theorem publishReadings_digUnits (r : PerChannel Reading) : (publishReadings r s).digUnits = s.digUnits := rfl
@[simp] theorem publishReadings_muxIdx (r : PerChannel Reading) : (publishReadings r s).muxIdx = s.muxIdx := rfl
@[simp] theorem publishReadings_digitEn (r : PerChannel Reading) : (publishReadings r s).digitEn = s.digitEn := rfl
@[simp] theorem publishReadings_segBcd (r : PerChannel Reading) : (publishReadings r s).segBcd = s.segBcd := rfl
@[simp] theorem publishReadings_ledSafe (r : PerChannel Reading) : (publishReadings r s).ledSafe = s.ledSafe := rfl
@[simp] theorem publishReadings_ledUnsafe (r : PerChannel Reading) : (publishReadings r s).ledUnsafe = s.ledUnsafe := rfl
@[simp] theorem publishReadings_fgPhase (r : PerChannel Reading) : (publishReadings r s).fgPhase = s.fgPhase := rfl
@[simp] theorem publishReadings_schedule (r : PerChannel Reading) : (publishReadings r s).schedule = s.schedule := rfl
@[simp] theorem publishReadings_arrivals (r : PerChannel Reading) : (publishReadings r s).arrivals = s.arrivals := rfl
@[simp] theorem publishReadings_outputs (r : PerChannel Reading) : (publishReadings r s).outputs = s.outputs := rfl

/-! `clearFrameReady` -/

@[simp] theorem clearFrameReady_rxBuf : (clearFrameReady s).rxBuf = s.rxBuf := rfl
@[simp] theorem clearFrameReady_rxPos : (clearFrameReady s).rxPos = s.rxPos := rfl
@[simp] theorem clearFrameReady_frameReady : (clearFrameReady s).frameReady = false := rfl
@[simp] theorem clearFrameReady_frameRd : (clearFrameReady s).frameRd = s.frameRd := rfl
@[simp] theorem clearFrameReady_hist : (clearFrameReady s).hist = s.hist := rfl
@[simp] theorem clearFrameReady_histPos : (clearFrameReady s).histPos = s.histPos := rfl
@[simp] theorem clearFrameReady_avg : (clearFrameReady s).avg = s.avg := rfl
@[simp] theorem clearFrameReady_debState : (clearFrameReady s).debState = s.debState := rfl
@[simp] theorem clearFrameReady_debCand : (clearFrameReady s).debCand = s.debCand := rfl
@[simp] theorem clearFrameReady_selPending : (clearFrameReady s).selPending = s.selPending := rfl
@[simp] theorem clearFrameReady_selEvent : (clearFrameReady s).selEvent = s.selEvent := rfl
@[simp] theorem clearFrameReady_selection : (clearFrameReady s).selection = s.selection := rfl
@[simp] theorem clearFrameReady_digTens : (clearFrameReady s).digTens = s.digTens := rfl
@[simp] theorem clearFrameReady_digUnits : (clearFrameReady s).digUnits = s.digUnits := rfl
@[simp] theorem clearFrameReady_muxIdx : (clearFrameReady s).muxIdx = s.muxIdx := rfl
@[simp] theorem clearFrameReady_digitEn : (clearFrameReady s).digitEn = s.digitEn := rfl
@[simp] theorem clearFrameReady_segBcd : (clearFrameReady s).segBcd = s.segBcd := rfl
@[simp] theorem clearFrameReady_ledSafe : (clearFrameReady s).ledSafe = s.ledSafe := rfl
@[simp] theorem clearFrameReady_ledUnsafe : (clearFrameReady s).ledUnsafe = s.ledUnsafe := rfl
@[simp] theorem clearFrameReady_fgPhase : (clearFrameReady s).fgPhase = s.fgPhase := rfl
@[simp] theorem clearFrameReady_schedule : (clearFrameReady s).schedule = s.schedule := rfl
@[simp] theorem clearFrameReady_arrivals : (clearFrameReady s).arrivals = s.arrivals := rfl
@[simp] theorem clearFrameReady_outputs : (clearFrameReady s).outputs = s.outputs := rfl

/-! `postSelection` -/

@[simp] theorem postSelection_rxBuf (c : Chan) : (postSelection c s).rxBuf = s.rxBuf := rfl
@[simp] theorem postSelection_rxPos (c : Chan) : (postSelection c s).rxPos = s.rxPos := rfl
@[simp] theorem postSelection_frameReady (c : Chan) : (postSelection c s).frameReady = s.frameReady := rfl
@[simp] theorem postSelection_frameRd (c : Chan) : (postSelection c s).frameRd = s.frameRd := rfl
@[simp] theorem postSelection_hist (c : Chan) : (postSelection c s).hist = s.hist := rfl
@[simp] theorem postSelection_histPos (c : Chan) : (postSelection c s).histPos = s.histPos := rfl
@[simp] theorem postSelection_avg (c : Chan) : (postSelection c s).avg = s.avg := rfl
@[simp] theorem postSelection_debState (c : Chan) : (postSelection c s).debState = s.debState := rfl
@[simp] theorem postSelection_debCand (c : Chan) : (postSelection c s).debCand = s.debCand := rfl
@[simp] theorem postSelection_selPending (c : Chan) : (postSelection c s).selPending = true := rfl
@[simp] theorem postSelection_selEvent (c : Chan) : (postSelection c s).selEvent = c := rfl
@[simp] theorem postSelection_selection (c : Chan) : (postSelection c s).selection = s.selection := rfl
@[simp] theorem postSelection_digTens (c : Chan) : (postSelection c s).digTens = s.digTens := rfl
@[simp] theorem postSelection_digUnits (c : Chan) : (postSelection c s).digUnits = s.digUnits := rfl
@[simp] theorem postSelection_muxIdx (c : Chan) : (postSelection c s).muxIdx = s.muxIdx := rfl
@[simp] theorem postSelection_digitEn (c : Chan) : (postSelection c s).digitEn = s.digitEn := rfl
@[simp] theorem postSelection_segBcd (c : Chan) : (postSelection c s).segBcd = s.segBcd := rfl
@[simp] theorem postSelection_ledSafe (c : Chan) : (postSelection c s).ledSafe = s.ledSafe := rfl
@[simp] theorem postSelection_ledUnsafe (c : Chan) : (postSelection c s).ledUnsafe = s.ledUnsafe := rfl
@[simp] theorem postSelection_fgPhase (c : Chan) : (postSelection c s).fgPhase = s.fgPhase := rfl
@[simp] theorem postSelection_schedule (c : Chan) : (postSelection c s).schedule = s.schedule := rfl
@[simp] theorem postSelection_arrivals (c : Chan) : (postSelection c s).arrivals = s.arrivals := rfl
@[simp] theorem postSelection_outputs (c : Chan) : (postSelection c s).outputs = s.outputs := rfl

/-! `takeSelection` -/

@[simp] theorem takeSelection_rxBuf : (takeSelection s).rxBuf = s.rxBuf := rfl
@[simp] theorem takeSelection_rxPos : (takeSelection s).rxPos = s.rxPos := rfl
@[simp] theorem takeSelection_frameReady : (takeSelection s).frameReady = s.frameReady := rfl
@[simp] theorem takeSelection_frameRd : (takeSelection s).frameRd = s.frameRd := rfl
@[simp] theorem takeSelection_hist : (takeSelection s).hist = s.hist := rfl
@[simp] theorem takeSelection_histPos : (takeSelection s).histPos = s.histPos := rfl
@[simp] theorem takeSelection_avg : (takeSelection s).avg = s.avg := rfl
@[simp] theorem takeSelection_debState : (takeSelection s).debState = s.debState := rfl
@[simp] theorem takeSelection_debCand : (takeSelection s).debCand = s.debCand := rfl
@[simp] theorem takeSelection_selPending : (takeSelection s).selPending = false := rfl
@[simp] theorem takeSelection_selEvent : (takeSelection s).selEvent = s.selEvent := rfl
@[simp] theorem takeSelection_selection : (takeSelection s).selection = s.selEvent := rfl
@[simp] theorem takeSelection_digTens : (takeSelection s).digTens = s.digTens := rfl
@[simp] theorem takeSelection_digUnits : (takeSelection s).digUnits = s.digUnits := rfl
@[simp] theorem takeSelection_muxIdx : (takeSelection s).muxIdx = s.muxIdx := rfl
@[simp] theorem takeSelection_digitEn : (takeSelection s).digitEn = s.digitEn := rfl
@[simp] theorem takeSelection_segBcd : (takeSelection s).segBcd = s.segBcd := rfl
@[simp] theorem takeSelection_ledSafe : (takeSelection s).ledSafe = s.ledSafe := rfl
@[simp] theorem takeSelection_ledUnsafe : (takeSelection s).ledUnsafe = s.ledUnsafe := rfl
@[simp] theorem takeSelection_fgPhase : (takeSelection s).fgPhase = s.fgPhase := rfl
@[simp] theorem takeSelection_schedule : (takeSelection s).schedule = s.schedule := rfl
@[simp] theorem takeSelection_arrivals : (takeSelection s).arrivals = s.arrivals := rfl
@[simp] theorem takeSelection_outputs : (takeSelection s).outputs = s.outputs := rfl

/-! `recordFrame` -/

@[simp] theorem recordFrame_rxBuf (r : PerChannel Reading) : (recordFrame r s).rxBuf = s.rxBuf := rfl
@[simp] theorem recordFrame_rxPos (r : PerChannel Reading) : (recordFrame r s).rxPos = s.rxPos := rfl
@[simp] theorem recordFrame_frameReady (r : PerChannel Reading) : (recordFrame r s).frameReady = s.frameReady := rfl
@[simp] theorem recordFrame_frameRd (r : PerChannel Reading) : (recordFrame r s).frameRd = s.frameRd := rfl
@[simp] theorem recordFrame_hist (r : PerChannel Reading) : (recordFrame r s).hist = PerChannel.tabulate (recordedRing r s) := rfl
@[simp] theorem recordFrame_histPos (r : PerChannel Reading) : (recordFrame r s).histPos = PerChannel.tabulate (fun c => s.histPos.get c + 1#2) := rfl
@[simp] theorem recordFrame_avg (r : PerChannel Reading) : (recordFrame r s).avg = PerChannel.tabulate (fun c => ringAverage (recordedRing r s c)) := rfl
@[simp] theorem recordFrame_debState (r : PerChannel Reading) : (recordFrame r s).debState = s.debState := rfl
@[simp] theorem recordFrame_debCand (r : PerChannel Reading) : (recordFrame r s).debCand = s.debCand := rfl
@[simp] theorem recordFrame_selPending (r : PerChannel Reading) : (recordFrame r s).selPending = s.selPending := rfl
@[simp] theorem recordFrame_selEvent (r : PerChannel Reading) : (recordFrame r s).selEvent = s.selEvent := rfl
@[simp] theorem recordFrame_selection (r : PerChannel Reading) : (recordFrame r s).selection = s.selection := rfl
@[simp] theorem recordFrame_digTens (r : PerChannel Reading) : (recordFrame r s).digTens = s.digTens := rfl
@[simp] theorem recordFrame_digUnits (r : PerChannel Reading) : (recordFrame r s).digUnits = s.digUnits := rfl
@[simp] theorem recordFrame_muxIdx (r : PerChannel Reading) : (recordFrame r s).muxIdx = s.muxIdx := rfl
@[simp] theorem recordFrame_digitEn (r : PerChannel Reading) : (recordFrame r s).digitEn = s.digitEn := rfl
@[simp] theorem recordFrame_segBcd (r : PerChannel Reading) : (recordFrame r s).segBcd = s.segBcd := rfl
@[simp] theorem recordFrame_ledSafe (r : PerChannel Reading) : (recordFrame r s).ledSafe = s.ledSafe := rfl
@[simp] theorem recordFrame_ledUnsafe (r : PerChannel Reading) : (recordFrame r s).ledUnsafe = s.ledUnsafe := rfl
@[simp] theorem recordFrame_fgPhase (r : PerChannel Reading) : (recordFrame r s).fgPhase = s.fgPhase := rfl
@[simp] theorem recordFrame_schedule (r : PerChannel Reading) : (recordFrame r s).schedule = s.schedule := rfl
@[simp] theorem recordFrame_arrivals (r : PerChannel Reading) : (recordFrame r s).arrivals = s.arrivals := rfl
@[simp] theorem recordFrame_outputs (r : PerChannel Reading) : (recordFrame r s).outputs = s.outputs := rfl

/-! `writeDigits` -/

@[simp] theorem writeDigits_rxBuf (d : Bcd × Bcd) : (writeDigits d s).rxBuf = s.rxBuf := rfl
@[simp] theorem writeDigits_rxPos (d : Bcd × Bcd) : (writeDigits d s).rxPos = s.rxPos := rfl
@[simp] theorem writeDigits_frameReady (d : Bcd × Bcd) : (writeDigits d s).frameReady = s.frameReady := rfl
@[simp] theorem writeDigits_frameRd (d : Bcd × Bcd) : (writeDigits d s).frameRd = s.frameRd := rfl
@[simp] theorem writeDigits_hist (d : Bcd × Bcd) : (writeDigits d s).hist = s.hist := rfl
@[simp] theorem writeDigits_histPos (d : Bcd × Bcd) : (writeDigits d s).histPos = s.histPos := rfl
@[simp] theorem writeDigits_avg (d : Bcd × Bcd) : (writeDigits d s).avg = s.avg := rfl
@[simp] theorem writeDigits_debState (d : Bcd × Bcd) : (writeDigits d s).debState = s.debState := rfl
@[simp] theorem writeDigits_debCand (d : Bcd × Bcd) : (writeDigits d s).debCand = s.debCand := rfl
@[simp] theorem writeDigits_selPending (d : Bcd × Bcd) : (writeDigits d s).selPending = s.selPending := rfl
@[simp] theorem writeDigits_selEvent (d : Bcd × Bcd) : (writeDigits d s).selEvent = s.selEvent := rfl
@[simp] theorem writeDigits_selection (d : Bcd × Bcd) : (writeDigits d s).selection = s.selection := rfl
@[simp] theorem writeDigits_digTens (d : Bcd × Bcd) : (writeDigits d s).digTens = d.1 := rfl
@[simp] theorem writeDigits_digUnits (d : Bcd × Bcd) : (writeDigits d s).digUnits = d.2 := rfl
@[simp] theorem writeDigits_muxIdx (d : Bcd × Bcd) : (writeDigits d s).muxIdx = s.muxIdx := rfl
@[simp] theorem writeDigits_digitEn (d : Bcd × Bcd) : (writeDigits d s).digitEn = s.digitEn := rfl
@[simp] theorem writeDigits_segBcd (d : Bcd × Bcd) : (writeDigits d s).segBcd = s.segBcd := rfl
@[simp] theorem writeDigits_ledSafe (d : Bcd × Bcd) : (writeDigits d s).ledSafe = s.ledSafe := rfl
@[simp] theorem writeDigits_ledUnsafe (d : Bcd × Bcd) : (writeDigits d s).ledUnsafe = s.ledUnsafe := rfl
@[simp] theorem writeDigits_fgPhase (d : Bcd × Bcd) : (writeDigits d s).fgPhase = s.fgPhase := rfl
@[simp] theorem writeDigits_schedule (d : Bcd × Bcd) : (writeDigits d s).schedule = s.schedule := rfl
@[simp] theorem writeDigits_arrivals (d : Bcd × Bcd) : (writeDigits d s).arrivals = s.arrivals := rfl
@[simp] theorem writeDigits_outputs (d : Bcd × Bcd) : (writeDigits d s).outputs = s.outputs := rfl

/-! `toggleIndex` -/

@[simp] theorem toggleIndex_rxBuf : (toggleIndex s).rxBuf = s.rxBuf := rfl
@[simp] theorem toggleIndex_rxPos : (toggleIndex s).rxPos = s.rxPos := rfl
@[simp] theorem toggleIndex_frameReady : (toggleIndex s).frameReady = s.frameReady := rfl
@[simp] theorem toggleIndex_frameRd : (toggleIndex s).frameRd = s.frameRd := rfl
@[simp] theorem toggleIndex_hist : (toggleIndex s).hist = s.hist := rfl
@[simp] theorem toggleIndex_histPos : (toggleIndex s).histPos = s.histPos := rfl
@[simp] theorem toggleIndex_avg : (toggleIndex s).avg = s.avg := rfl
@[simp] theorem toggleIndex_debState : (toggleIndex s).debState = s.debState := rfl
@[simp] theorem toggleIndex_debCand : (toggleIndex s).debCand = s.debCand := rfl
@[simp] theorem toggleIndex_selPending : (toggleIndex s).selPending = s.selPending := rfl
@[simp] theorem toggleIndex_selEvent : (toggleIndex s).selEvent = s.selEvent := rfl
@[simp] theorem toggleIndex_selection : (toggleIndex s).selection = s.selection := rfl
@[simp] theorem toggleIndex_digTens : (toggleIndex s).digTens = s.digTens := rfl
@[simp] theorem toggleIndex_digUnits : (toggleIndex s).digUnits = s.digUnits := rfl
@[simp] theorem toggleIndex_muxIdx : (toggleIndex s).muxIdx = 1#1 - s.muxIdx := rfl
@[simp] theorem toggleIndex_digitEn : (toggleIndex s).digitEn = s.digitEn := rfl
@[simp] theorem toggleIndex_segBcd : (toggleIndex s).segBcd = s.segBcd := rfl
@[simp] theorem toggleIndex_ledSafe : (toggleIndex s).ledSafe = s.ledSafe := rfl
@[simp] theorem toggleIndex_ledUnsafe : (toggleIndex s).ledUnsafe = s.ledUnsafe := rfl
@[simp] theorem toggleIndex_fgPhase : (toggleIndex s).fgPhase = s.fgPhase := rfl
@[simp] theorem toggleIndex_schedule : (toggleIndex s).schedule = s.schedule := rfl
@[simp] theorem toggleIndex_arrivals : (toggleIndex s).arrivals = s.arrivals := rfl
@[simp] theorem toggleIndex_outputs : (toggleIndex s).outputs = s.outputs := rfl

/-! `emit_leds` -/

@[simp] theorem emit_leds_rxBuf (x y : Bool) : (emit (.leds x y) s).rxBuf = s.rxBuf := rfl
@[simp] theorem emit_leds_rxPos (x y : Bool) : (emit (.leds x y) s).rxPos = s.rxPos := rfl
@[simp] theorem emit_leds_frameReady (x y : Bool) : (emit (.leds x y) s).frameReady = s.frameReady := rfl
@[simp] theorem emit_leds_frameRd (x y : Bool) : (emit (.leds x y) s).frameRd = s.frameRd := rfl
@[simp] theorem emit_leds_hist (x y : Bool) : (emit (.leds x y) s).hist = s.hist := rfl
@[simp] theorem emit_leds_histPos (x y : Bool) : (emit (.leds x y) s).histPos = s.histPos := rfl
@[simp] theorem emit_leds_avg (x y : Bool) : (emit (.leds x y) s).avg = s.avg := rfl
@[simp] theorem emit_leds_debState (x y : Bool) : (emit (.leds x y) s).debState = s.debState := rfl
@[simp] theorem emit_leds_debCand (x y : Bool) : (emit (.leds x y) s).debCand = s.debCand := rfl
@[simp] theorem emit_leds_selPending (x y : Bool) : (emit (.leds x y) s).selPending = s.selPending := rfl
@[simp] theorem emit_leds_selEvent (x y : Bool) : (emit (.leds x y) s).selEvent = s.selEvent := rfl
@[simp] theorem emit_leds_selection (x y : Bool) : (emit (.leds x y) s).selection = s.selection := rfl
@[simp] theorem emit_leds_digTens (x y : Bool) : (emit (.leds x y) s).digTens = s.digTens := rfl
@[simp] theorem emit_leds_digUnits (x y : Bool) : (emit (.leds x y) s).digUnits = s.digUnits := rfl
@[simp] theorem emit_leds_muxIdx (x y : Bool) : (emit (.leds x y) s).muxIdx = s.muxIdx := rfl
@[simp] theorem emit_leds_digitEn (x y : Bool) : (emit (.leds x y) s).digitEn = s.digitEn := rfl
@[simp] theorem emit_leds_segBcd (x y : Bool) : (emit (.leds x y) s).segBcd = s.segBcd := rfl
@[simp] theorem emit_leds_ledSafe (x y : Bool) : (emit (.leds x y) s).ledSafe = x := rfl
@[simp] theorem emit_leds_ledUnsafe (x y : Bool) : (emit (.leds x y) s).ledUnsafe = y := rfl
@[simp] theorem emit_leds_fgPhase (x y : Bool) : (emit (.leds x y) s).fgPhase = s.fgPhase := rfl
@[simp] theorem emit_leds_schedule (x y : Bool) : (emit (.leds x y) s).schedule = s.schedule := rfl
@[simp] theorem emit_leds_arrivals (x y : Bool) : (emit (.leds x y) s).arrivals = s.arrivals := rfl
@[simp] theorem emit_leds_outputs (x y : Bool) : (emit (.leds x y) s).outputs = s.outputs ++ [.leds x y] := rfl

/-! `emit_digitEn` -/

@[simp] theorem emit_digitEn_rxBuf (v : BitVec 2) : (emit (.digitEn v) s).rxBuf = s.rxBuf := rfl
@[simp] theorem emit_digitEn_rxPos (v : BitVec 2) : (emit (.digitEn v) s).rxPos = s.rxPos := rfl
@[simp] theorem emit_digitEn_frameReady (v : BitVec 2) : (emit (.digitEn v) s).frameReady = s.frameReady := rfl
@[simp] theorem emit_digitEn_frameRd (v : BitVec 2) : (emit (.digitEn v) s).frameRd = s.frameRd := rfl
@[simp] theorem emit_digitEn_hist (v : BitVec 2) : (emit (.digitEn v) s).hist = s.hist := rfl
@[simp] theorem emit_digitEn_histPos (v : BitVec 2) : (emit (.digitEn v) s).histPos = s.histPos := rfl
@[simp] theorem emit_digitEn_avg (v : BitVec 2) : (emit (.digitEn v) s).avg = s.avg := rfl
@[simp] theorem emit_digitEn_debState (v : BitVec 2) : (emit (.digitEn v) s).debState = s.debState := rfl
@[simp] theorem emit_digitEn_debCand (v : BitVec 2) : (emit (.digitEn v) s).debCand = s.debCand := rfl
@[simp] theorem emit_digitEn_selPending (v : BitVec 2) : (emit (.digitEn v) s).selPending = s.selPending := rfl
@[simp] theorem emit_digitEn_selEvent (v : BitVec 2) : (emit (.digitEn v) s).selEvent = s.selEvent := rfl
@[simp] theorem emit_digitEn_selection (v : BitVec 2) : (emit (.digitEn v) s).selection = s.selection := rfl
@[simp] theorem emit_digitEn_digTens (v : BitVec 2) : (emit (.digitEn v) s).digTens = s.digTens := rfl
@[simp] theorem emit_digitEn_digUnits (v : BitVec 2) : (emit (.digitEn v) s).digUnits = s.digUnits := rfl
@[simp] theorem emit_digitEn_muxIdx (v : BitVec 2) : (emit (.digitEn v) s).muxIdx = s.muxIdx := rfl
@[simp] theorem emit_digitEn_digitEn (v : BitVec 2) : (emit (.digitEn v) s).digitEn = v := rfl
@[simp] theorem emit_digitEn_segBcd (v : BitVec 2) : (emit (.digitEn v) s).segBcd = s.segBcd := rfl
@[simp] theorem emit_digitEn_ledSafe (v : BitVec 2) : (emit (.digitEn v) s).ledSafe = s.ledSafe := rfl
@[simp] theorem emit_digitEn_ledUnsafe (v : BitVec 2) : (emit (.digitEn v) s).ledUnsafe = s.ledUnsafe := rfl
@[simp] theorem emit_digitEn_fgPhase (v : BitVec 2) : (emit (.digitEn v) s).fgPhase = s.fgPhase := rfl
@[simp] theorem emit_digitEn_schedule (v : BitVec 2) : (emit (.digitEn v) s).schedule = s.schedule := rfl
@[simp] theorem emit_digitEn_arrivals (v : BitVec 2) : (emit (.digitEn v) s).arrivals = s.arrivals := rfl
@[simp] theorem emit_digitEn_outputs (v : BitVec 2) : (emit (.digitEn v) s).outputs = s.outputs ++ [.digitEn v] := rfl

/-! `emit_segBcd` -/

@[simp] theorem emit_segBcd_rxBuf (v : Bcd) : (emit (.segBcd v) s).rxBuf = s.rxBuf := rfl
@[simp] theorem emit_segBcd_rxPos (v : Bcd) : (emit (.segBcd v) s).rxPos = s.rxPos := rfl
@[simp] theorem emit_segBcd_frameReady (v : Bcd) : (emit (.segBcd v) s).frameReady = s.frameReady := rfl
@[simp] theorem emit_segBcd_frameRd (v : Bcd) : (emit (.segBcd v) s).frameRd = s.frameRd := rfl
@[simp] theorem emit_segBcd_hist (v : Bcd) : (emit (.segBcd v) s).hist = s.hist := rfl
@[simp] theorem emit_segBcd_histPos (v : Bcd) : (emit (.segBcd v) s).histPos = s.histPos := rfl
@[simp] theorem emit_segBcd_avg (v : Bcd) : (emit (.segBcd v) s).avg = s.avg := rfl
@[simp] theorem emit_segBcd_debState (v : Bcd) : (emit (.segBcd v) s).debState = s.debState := rfl
@[simp] theorem emit_segBcd_debCand (v : Bcd) : (emit (.segBcd v) s).debCand = s.debCand := rfl
@[simp] theorem emit_segBcd_selPending (v : Bcd) : (emit (.segBcd v) s).selPending = s.selPending := rfl
@[simp] theorem emit_segBcd_selEvent (v : Bcd) : (emit (.segBcd v) s).selEvent = s.selEvent := rfl
@[simp] theorem emit_segBcd_selection (v : Bcd) : (emit (.segBcd v) s).selection = s.selection := rfl
@[simp] theorem emit_segBcd_digTens (v : Bcd) : (emit (.segBcd v) s).digTens = s.digTens := rfl
@[simp] theorem emit_segBcd_digUnits (v : Bcd) : (emit (.segBcd v) s).digUnits = s.digUnits := rfl
@[simp] theorem emit_segBcd_muxIdx (v : Bcd) : (emit (.segBcd v) s).muxIdx = s.muxIdx := rfl
@[simp] theorem emit_segBcd_digitEn (v : Bcd) : (emit (.segBcd v) s).digitEn = s.digitEn := rfl
@[simp] theorem emit_segBcd_segBcd (v : Bcd) : (emit (.segBcd v) s).segBcd = v := rfl
@[simp] theorem emit_segBcd_ledSafe (v : Bcd) : (emit (.segBcd v) s).ledSafe = s.ledSafe := rfl
@[simp] theorem emit_segBcd_ledUnsafe (v : Bcd) : (emit (.segBcd v) s).ledUnsafe = s.ledUnsafe := rfl
@[simp] theorem emit_segBcd_fgPhase (v : Bcd) : (emit (.segBcd v) s).fgPhase = s.fgPhase := rfl
@[simp] theorem emit_segBcd_schedule (v : Bcd) : (emit (.segBcd v) s).schedule = s.schedule := rfl
@[simp] theorem emit_segBcd_arrivals (v : Bcd) : (emit (.segBcd v) s).arrivals = s.arrivals := rfl
@[simp] theorem emit_segBcd_outputs (v : Bcd) : (emit (.segBcd v) s).outputs = s.outputs ++ [.segBcd v] := rfl

/-! `emit_debStart` -/

@[simp] theorem emit_debStart_rxBuf : (emit .debStart s).rxBuf = s.rxBuf := rfl
@[simp] theorem emit_debStart_rxPos : (emit .debStart s).rxPos = s.rxPos := rfl
@[simp] theorem emit_debStart_frameReady : (emit .debStart s).frameReady = s.frameReady := rfl
@[simp] theorem emit_debStart_frameRd : (emit .debStart s).frameRd = s.frameRd := rfl
@[simp] theorem emit_debStart_hist : (emit .debStart s).hist = s.hist := rfl
@[simp] theorem emit_debStart_histPos : (emit .debStart s).histPos = s.histPos := rfl
@[simp] theorem emit_debStart_avg : (emit .debStart s).avg = s.avg := rfl
@[simp] theorem emit_debStart_debState : (emit .debStart s).debState = s.debState := rfl
@[simp] theorem emit_debStart_debCand : (emit .debStart s).debCand = s.debCand := rfl
@[simp] theorem emit_debStart_selPending : (emit .debStart s).selPending = s.selPending := rfl
@[simp] theorem emit_debStart_selEvent : (emit .debStart s).selEvent = s.selEvent := rfl
@[simp] theorem emit_debStart_selection : (emit .debStart s).selection = s.selection := rfl
@[simp] theorem emit_debStart_digTens : (emit .debStart s).digTens = s.digTens := rfl
@[simp] theorem emit_debStart_digUnits : (emit .debStart s).digUnits = s.digUnits := rfl
@[simp] theorem emit_debStart_muxIdx : (emit .debStart s).muxIdx = s.muxIdx := rfl
@[simp] theorem emit_debStart_digitEn : (emit .debStart s).digitEn = s.digitEn := rfl
@[simp] theorem emit_debStart_segBcd : (emit .debStart s).segBcd = s.segBcd := rfl
@[simp] theorem emit_debStart_ledSafe : (emit .debStart s).ledSafe = s.ledSafe := rfl
@[simp] theorem emit_debStart_ledUnsafe : (emit .debStart s).ledUnsafe = s.ledUnsafe := rfl
@[simp] theorem emit_debStart_fgPhase : (emit .debStart s).fgPhase = s.fgPhase := rfl
@[simp] theorem emit_debStart_schedule : (emit .debStart s).schedule = s.schedule := rfl
@[simp] theorem emit_debStart_arrivals : (emit .debStart s).arrivals = s.arrivals := rfl
@[simp] theorem emit_debStart_outputs : (emit .debStart s).outputs = s.outputs ++ [.debStart] := rfl

/-! `resetVariables` -/

@[simp] theorem resetVariables_rxBuf : (resetVariables s).rxBuf = State.reset.rxBuf := rfl
@[simp] theorem resetVariables_rxPos : (resetVariables s).rxPos = State.reset.rxPos := rfl
@[simp] theorem resetVariables_frameReady : (resetVariables s).frameReady = State.reset.frameReady := rfl
@[simp] theorem resetVariables_frameRd : (resetVariables s).frameRd = State.reset.frameRd := rfl
@[simp] theorem resetVariables_hist : (resetVariables s).hist = State.reset.hist := rfl
@[simp] theorem resetVariables_histPos : (resetVariables s).histPos = State.reset.histPos := rfl
@[simp] theorem resetVariables_avg : (resetVariables s).avg = State.reset.avg := rfl
@[simp] theorem resetVariables_debState : (resetVariables s).debState = State.reset.debState := rfl
@[simp] theorem resetVariables_debCand : (resetVariables s).debCand = State.reset.debCand := rfl
@[simp] theorem resetVariables_selPending : (resetVariables s).selPending = State.reset.selPending := rfl
@[simp] theorem resetVariables_selEvent : (resetVariables s).selEvent = State.reset.selEvent := rfl
@[simp] theorem resetVariables_selection : (resetVariables s).selection = State.reset.selection := rfl
@[simp] theorem resetVariables_digTens : (resetVariables s).digTens = State.reset.digTens := rfl
@[simp] theorem resetVariables_digUnits : (resetVariables s).digUnits = State.reset.digUnits := rfl
@[simp] theorem resetVariables_muxIdx : (resetVariables s).muxIdx = State.reset.muxIdx := rfl
@[simp] theorem resetVariables_digitEn : (resetVariables s).digitEn = State.reset.digitEn := rfl
@[simp] theorem resetVariables_segBcd : (resetVariables s).segBcd = State.reset.segBcd := rfl
@[simp] theorem resetVariables_ledSafe : (resetVariables s).ledSafe = State.reset.ledSafe := rfl
@[simp] theorem resetVariables_ledUnsafe : (resetVariables s).ledUnsafe = State.reset.ledUnsafe := rfl
@[simp] theorem resetVariables_fgPhase : (resetVariables s).fgPhase = State.reset.fgPhase := rfl
@[simp] theorem resetVariables_schedule : (resetVariables s).schedule = s.schedule := rfl
@[simp] theorem resetVariables_arrivals : (resetVariables s).arrivals = s.arrivals := rfl
@[simp] theorem resetVariables_outputs : (resetVariables s).outputs = State.reset.outputs := rfl

/-! `State.reset` (10_state.md R51) -/

@[simp] theorem reset_rxBuf : State.reset.rxBuf = [] := rfl
@[simp] theorem reset_rxPos : State.reset.rxPos = 0#5 := rfl
@[simp] theorem reset_frameReady : State.reset.frameReady = false := rfl
@[simp] theorem reset_frameRd : State.reset.frameRd = ⟨0#16, 0#16, 0#16⟩ := rfl
@[simp] theorem reset_histPos : State.reset.histPos = ⟨0#2, 0#2, 0#2⟩ := rfl
@[simp] theorem reset_avg : State.reset.avg = ⟨0#16, 0#16, 0#16⟩ := rfl
@[simp] theorem reset_debState : State.reset.debState = .idle := rfl
@[simp] theorem reset_debCand : State.reset.debCand = .A := rfl
@[simp] theorem reset_selPending : State.reset.selPending = false := rfl
@[simp] theorem reset_selEvent : State.reset.selEvent = .A := rfl
@[simp] theorem reset_selection : State.reset.selection = .A := rfl
@[simp] theorem reset_digTens : State.reset.digTens = 0#4 := rfl
@[simp] theorem reset_digUnits : State.reset.digUnits = 0#4 := rfl
@[simp] theorem reset_muxIdx : State.reset.muxIdx = 0#1 := rfl
@[simp] theorem reset_digitEn : State.reset.digitEn = 0#2 := rfl
@[simp] theorem reset_segBcd : State.reset.segBcd = 0#4 := rfl
@[simp] theorem reset_ledSafe : State.reset.ledSafe = false := rfl
@[simp] theorem reset_ledUnsafe : State.reset.ledUnsafe = false := rfl
@[simp] theorem reset_fgPhase : State.reset.fgPhase = 0#1 := rfl
@[simp] theorem reset_schedule : State.reset.schedule = [] := rfl
@[simp] theorem reset_arrivals : State.reset.arrivals = 0 := rfl
@[simp] theorem reset_outputs : State.reset.outputs = [] := rfl

end Sys2Proof.Machine
end

