-- ==== Sys2Proof/Laws/Operands.lean ====
section
/-!
SUPPORT. The operand forms and the pure functions: what each computes, as a number.
-/

namespace Sys2Proof.Machine

theorem toNat_field16 (hi lo : Byte) : (field16 hi lo).toNat = hi.toNat * 256 + lo.toNat := by
  have hlo : lo.toNat < 2 ^ 8 := lo.isLt
  simp only [field16]
  rw [BitVec.toNat_append, ← Nat.shiftLeft_add_eq_or_of_lt hlo]
  simp [Nat.shiftLeft_eq]

theorem sum_map_le (l : List Nat) (g : Nat → Byte) : (l.map (fun i => (g i).toNat)).sum ≤ l.length * 255 := by
  induction l with
  | nil => simp
  | cons a l ih =>
    have := (g a).isLt
    simp only [List.map_cons, List.sum_cons, List.length_cons]
    omega

/-- The checksum input fits its sixteen bits (40_frame_receiver.md R123). -/
theorem toNat_sum30 (s : State) : (sum30 s).toNat = ((List.range 30).map (fun i => (s.fb i).toNat)).sum := by
  have h := sum_map_le (List.range 30) s.fb
  simp only [List.length_range] at h
  exact Nat.mod_eq_of_lt (by simp only [Config.sumLen]; omega)

/-- The comparison of 40_frame_receiver.md R124, as one of numbers. -/
theorem checksumOk_iff (s : State) :
    checksumOk s = true ↔
      ((List.range 30).map (fun i => (s.fb i).toNat)).sum = 256 * (s.fb 29).toNat + (s.fb 30).toNat := by
  rw [checksumOk, beq_iff_eq, ← BitVec.toNat_inj, toNat_sum30, ckval, toNat_field16, Nat.mul_comm]

/-- The functions of the buffer read nothing else, and nothing of it but the bytes they name. -/
theorem checksumOk_congr {s t : State} (h : ∀ a, a < 31 → t.fb a = s.fb a) : checksumOk t = checksumOk s := by
  have hs : (List.range 30).map (fun i => (t.fb i).toNat) = (List.range 30).map (fun i => (s.fb i).toNat) :=
    List.map_congr_left (fun i hi => by rw [h i (by have := List.mem_range.1 hi; omega)])
  simp only [checksumOk, sum30, ckval, Config.sumLen, Config.ckHi, Config.ckLo, hs, h 29 (by omega), h 30 (by omega)]

theorem frameReadings_congr {s t : State} (h : ∀ a, a < 31 → t.fb a = s.fb a) :
    frameReadings t = frameReadings s := by
  simp only [frameReadings, PerChannel.tabulate, channelField, Config.chHi, Config.chLo]
  simp only [h 10 (by omega), h 11 (by omega), h 12 (by omega), h 13 (by omega), h 14 (by omega), h 15 (by omega)]

/-- `AVG` as a number: the sum never wraps (41_rolling_average.md R152, R153). -/
theorem toNat_ringAverage (r : Ring) :
    (ringAverage r).toNat =
      ((ringRead r 0#2).toNat + (ringRead r 1#2).toNat + (ringRead r 2#2).toNat + (ringRead r 3#2).toNat) / 4 := by
  have h0 := (ringRead r 0#2).isLt
  have h1 := (ringRead r 1#2).isLt
  have h2 := (ringRead r 2#2).isLt
  have h3 := (ringRead r 3#2).isLt
  exact Nat.mod_eq_of_lt (by simp only [Config.ringDepth]; omega)

/-- An entry after a ring write: the value written at its index, the old value at every other. -/
theorem ringRead_ringWrite (r : Ring) (i j : BitVec 2) (v : Reading) :
    ringRead (ringWrite r i v) j = if j = i then v else ringRead r j := by
  have hij : (i.toNat = j.toNat) ↔ j = i := by rw [BitVec.toNat_inj, eq_comm]
  simp only [ringRead, ringWrite, Vector.getElem_set, hij]

@[simp] theorem get_tabulate {α : Type} (f : MeasChannel → α) (c : MeasChannel) :
    (PerChannel.tabulate f).get c = f c := by cases c <;> rfl

/-- One channel after `REC` (41_rolling_average.md R150): the entry at the cursor, the cursor, and the average of the
new ring. -/
theorem recordFrame_channel (r : PerChannel Reading) (s : State) (c : MeasChannel) :
    (recordFrame r s).hist.get c = ringWrite (s.hist.get c) (s.histPos.get c) (r.get c) ∧
      (recordFrame r s).histPos.get c = s.histPos.get c + 1#2 ∧
      (recordFrame r s).avg.get c = ringAverage ((recordFrame r s).hist.get c) := by
  simp [recordedRing]

theorem val_clamp (a : Reading) : (clamp a).val = min a.toNat 99 := rfl

/-- The digits of a display value, as numbers (44_display.md R200). -/
theorem toNat_encodeBcd (v : DisplayValue) :
    (encodeBcd v).1.toNat = v.val / 10 ∧ (encodeBcd v).2.toNat = v.val % 10 := by
  have := v.isLt
  simp only [encodeBcd, BitVec.toNat_ofNat]
  omega

end Sys2Proof.Machine
end

