-- ==== Sys2Proof/Laws/Steps.lean ====
section
/-!
SUPPORT. What each shared operation can do, said once: the cases of `RXB` after its store, of a button edge, of the
debounce expiry, of the two foreground steps, of the indicator and of the tick, and what a fetch can answer.
-/

namespace Sys2Proof.Machine

/-- After its store, at index `p`, `RXB` desynchronises, completes a frame with or without a match, or is done
(40_frame_receiver.md R120). -/
theorem examineFrame_cases (p : BitVec 5) (s : State) :
    (s.fb 0 ≠ 0x42#8 ∧ examineFrame p s = desync s) ∨
    (s.fb 0 = 0x42#8 ∧ p = 31#5 ∧ s.fb 31 ≠ 0x00#8 ∧ checksumOk s = true ∧
      examineFrame p s = closeFrame (publishReadings (frameReadings s) s)) ∨
    (s.fb 0 = 0x42#8 ∧ p = 31#5 ∧ s.fb 31 ≠ 0x00#8 ∧ checksumOk s = false ∧ examineFrame p s = closeFrame s) ∨
    (s.fb 0 = 0x42#8 ∧ (p = 31#5 → s.fb 31 = 0x00#8) ∧ examineFrame p s = s) := by
  have hp : p.toNat = 31 ↔ p = 31#5 := by rw [← BitVec.toNat_inj]; rfl
  by_cases h0 : s.fb 0 = 0x42#8
  · by_cases h31 : p = 31#5 ∧ s.fb 31 ≠ 0x00#8
    · cases hc : checksumOk s
      · exact .inr (.inr (.inl ⟨h0, h31.1, h31.2, rfl, by simp [examineFrame, completeFrame, h0, h31, hc]⟩))
      · exact .inr (.inl ⟨h0, h31.1, h31.2, rfl, by simp [examineFrame, completeFrame, h0, h31, hc]⟩)
    · refine .inr (.inr (.inr ⟨h0, fun h => by_contra fun hn => h31 ⟨h, hn⟩, ?_⟩))
      simp only [examineFrame, Config.startPos, Config.startMarker, Config.sentPos, h0, hp, h31, ne_eq, not_true_eq_false,
        if_false]
  · exact .inl ⟨h0, by simp [examineFrame, h0]⟩

/-- A byte after the store of `RXB` (40_frame_receiver.md R121). -/
theorem fb_storeByte (b : Byte) (s : State) (a : Nat) :
    (storeByte b s).fb a = if a = s.rxPos.toNat then b else s.fb a := fb_setFb s s.rxPos.toNat a b

@[simp] theorem fb_desync (s : State) (a : Nat) : (desync s).fb a = 0x00#8 := rfl

/-- A byte after a frame is closed (40_frame_receiver.md R125). -/
theorem fb_closeFrame (s : State) (a : Nat) :
    (closeFrame s).fb a = if a = 0 ∨ a = 31 then 0x00#8 else s.fb a := by
  have h : (closeFrame s).fb a = ((s.setFb 0 0x00#8).setFb 31 0x00#8).fb a := rfl
  rw [h, fb_setFb, fb_setFb]
  split_ifs <;> simp_all

@[simp] theorem fb_publishReadings (r : PerChannel Reading) (s : State) (a : Nat) :
    (publishReadings r s).fb a = s.fb a := rfl

@[simp] theorem fb_beginStep (s : State) (a : Nat) : (beginStep s).fb a = s.fb a := rfl

/-- An edge in `Idle` (43_channel_selector.md R181, R182). -/
theorem buttonEdge_idle (line : Chan) {s : State} (h : s.debState = .idle) :
    buttonEdge line s = emit .debStart { s with debCand := line, debState := .debouncing } := by
  simp [buttonEdge, h]

/-- An edge in `Debouncing` (43_channel_selector.md R183). -/
theorem buttonEdge_debouncing (line : Chan) {s : State} (h : s.debState = .debouncing) : buttonEdge line s = s := by
  simp [buttonEdge, h]

/-- The expiry in `Debouncing` (43_channel_selector.md R184). -/
theorem debounceExpiry_debouncing {s : State} (h : s.debState = .debouncing) :
    debounceExpiry s = { s with debState := .idle, selEvent := s.debCand, selPending := true } := by
  simp [debounceExpiry, h, postSelection]

/-- The expiry in `Idle` (43_channel_selector.md R185). -/
theorem debounceExpiry_idle {s : State} (h : s.debState = .idle) : debounceExpiry s = s := by
  simp [debounceExpiry, h]

/-- Both lines, from the average alone (42_threshold_indicator.md R170, R172). -/
theorem driveIndicator_threshold (a : Reading) (s : State) :
    driveIndicator (threshold a) s = emit (.leds (decide (a.toNat ≤ 50)) (decide (50 < a.toNat))) s := by
  unfold threshold
  by_cases h : 50 < a.toNat
  · simp [driveIndicator, h, Nat.not_le.2 h]
  · simp [driveIndicator, h, Nat.le_of_not_lt h]

/-- `REFRESH` (44_display.md R205), all its writes. -/
theorem refresh_eq (s : State) :
    refresh s = { s with
      digTens := BitVec.ofNat 4 (min (selectedAverage s).toNat 99 / 10)
      digUnits := BitVec.ofNat 4 (min (selectedAverage s).toNat 99 % 10)
      ledSafe := decide ((selectedAverage s).toNat ≤ 50)
      ledUnsafe := decide (50 < (selectedAverage s).toNat)
      outputs := s.outputs ++
        [.leds (decide ((selectedAverage s).toNat ≤ 50)) (decide (50 < (selectedAverage s).toNat))] } := by
  rw [refresh, driveIndicator_threshold]
  rfl

/-- The tick from each position (44_display.md R210). -/
theorem execMuxt_eq (s : State) :
    (s.muxIdx = 0#1 ∧
      execMuxt s = .next { s with muxIdx := 1#1, segBcd := s.digUnits, digitEn := 0b10#2,
                                  outputs := [.digitEn 0b00#2, .segBcd s.digUnits, .digitEn 0b10#2] }) ∨
    (s.muxIdx = 1#1 ∧
      execMuxt s = .next { s with muxIdx := 0#1, segBcd := s.digTens, digitEn := 0b01#2,
                                  outputs := [.digitEn 0b00#2, .segBcd s.digTens, .digitEn 0b01#2] }) := by
  have h : s.muxIdx = 0#1 ∨ s.muxIdx = 1#1 := by generalize s.muxIdx = x; revert x; decide
  rcases h with h | h
  · exact .inl ⟨h, by simp [execMuxt, renderPosition, toggleIndex, beginStep, emit, OutputChange.drive, positionEnable,
      positionDigit, h]⟩
  · exact .inr ⟨h, by simp [execMuxt, renderPosition, toggleIndex, beginStep, emit, OutputChange.drive, positionEnable,
      positionDigit, h]⟩

/-- `RST`, all its writes (70_reset_and_hazards.md R280). -/
theorem execRst_eq (s : State) :
    execRst s = .next { State.reset with schedule := s.schedule, arrivals := s.arrivals,
                                         outputs := [.leds false false, .digitEn 0b00#2, .segBcd 0#4] } := rfl

/-- If `FGF` answers a next state, it was enabled, and this is the state (45_foreground.md R228). -/
theorem execFgf_next {s t : State} (h : execFgf s = .next t) :
    s.fgPhase = 0#1 ∧
      ((s.frameReady = true ∧
          t = { recordFrame s.frameRd s with frameReady := false, fgPhase := 1#1, outputs := [] }) ∨
        (s.frameReady = false ∧ t = { s with fgPhase := 1#1, outputs := [] })) := by
  unfold execFgf at h
  split at h
  · next hp =>
    refine ⟨hp, ?_⟩
    cases hr : s.frameReady
    · exact .inr ⟨rfl, by simpa [consumeFrame, beginStep, hr] using h.symm⟩
    · refine .inl ⟨rfl, ?_⟩
      have hb : (beginStep s).frameReady = true := hr
      rw [consumeFrame, if_pos hb] at h
      injection h with h
      exact h.symm
  · cases h

/-- If `FGS` answers a next state, it was enabled, and this is the state (45_foreground.md R230). -/
theorem execFgs_next {s t : State} (h : execFgs s = .next t) :
    s.fgPhase = 1#1 ∧ t = { refresh (consumeSelection (beginStep s)) with fgPhase := 0#1 } := by
  unfold execFgs at h
  split at h
  · next hp => exact ⟨hp, by injection h with h; exact h.symm⟩
  · cases h

/-- The state in which `REFRESH` runs (45_foreground.md R230). -/
theorem consumeSelection_eq (s : State) :
    consumeSelection s =
      { s with selection := if s.selPending = true then s.selEvent else s.selection, selPending := false } := by
  cases s with
  | mk rxBuf rxPos frameReady frameRd hist histPos avg debState debCand selPending =>
    cases selPending <;> rfl

/-- The event of a step with nothing scheduled: an arrival of an agent that is not the foreground, or the foreground's
own next step (00_scope.md R9, 45_foreground.md R226). -/
theorem unscheduledEvent_cases (s : State) :
    (Config.arrival s.arrivals = some (unscheduledEvent s) ∧ (unscheduledEvent s).agent ≠ .foreground) ∨
      ((∀ j, Config.arrival s.arrivals = some j → j.agent = .foreground) ∧ unscheduledEvent s = foregroundTurn s) := by
  unfold unscheduledEvent nextArrival
  cases h : Config.arrival s.arrivals with
  | none => exact .inr ⟨by simp, rfl⟩
  | some j =>
    by_cases hj : j.agent = .foreground
    · exact .inr ⟨fun k hk => Option.some.inj hk ▸ hj, by simp [Option.filter, hj]⟩
    · exact .inl (by simp [Option.filter, hj])

/-- What a fetch answers: the next scheduled word's event, or the event of a step with nothing scheduled. -/
theorem fetch_ok {s u : State} {i : Instr} (h : fetch s = .ok (i, u)) :
    (s.schedule = [] ∧ i = unscheduledEvent s ∧ u = { s with arrivals := s.arrivals + 1 }) ∨
      ∃ w rest, s.schedule = w :: rest ∧ decode w = .ok i ∧ u = { s with schedule := rest } := by
  unfold fetch at h
  split at h
  · next hs => injection h with h; injection h with h1 h2; exact .inl ⟨hs, h1.symm, h2.symm⟩
  · next w rest hs =>
    split at h
    · next j hj => injection h with h; injection h with h1 h2; exact .inr ⟨w, rest, hs, h1 ▸ hj, h2.symm⟩
    · cases h

/-- A step with nothing scheduled. -/
theorem step_unscheduled {s : State} (h : s.schedule = []) :
    step s = exec (unscheduledEvent s) { s with arrivals := s.arrivals + 1 } := by
  cases s
  cases h
  rfl

/-- If a step answers a next state, it ran the fetched event. -/
theorem step_next {s t : State} (h : step s = .next t) :
    ∃ i u, fetch s = .ok (i, u) ∧ exec i u = .next t := by
  unfold step at h
  split at h
  · next i u hf => exact ⟨i, u, hf, h⟩
  · cases h

/-- A run of a list that is split in two. -/
theorem runEvents_append (es fs : List Instr) (s : State) :
    runEvents (es ++ fs) s =
      match runEvents es s with
      | .next t => runEvents fs t
      | .fault f => .fault f
      | .refused r => .refused r := by
  induction es generalizing s with
  | nil => rfl
  | cons i es ih =>
    simp only [List.cons_append, runEvents]
    cases exec i s with
    | next t => exact ih t
    | fault f => rfl
    | refused r => rfl

/-- If a run answers a next state, so did its first event, and the rest of the run from there. -/
theorem runEvents_cons_next {i : Instr} {es : List Instr} {s t : State} (h : runEvents (i :: es) s = .next t) :
    ∃ u, exec i s = .next u ∧ runEvents es u = .next t := by
  simp only [runEvents] at h
  split at h
  · next u hu => exact ⟨u, hu, h⟩
  · cases h
  · cases h

/-- The interrupt events run in every state, and so does any list of them (30_encoding.md R103). -/
theorem runEvents_interrupts {es : List Instr} (h : ∀ i ∈ es, i ≠ .fgf ∧ i ≠ .fgs) (s : State) :
    ∃ t, runEvents es s = .next t := by
  induction es generalizing s with
  | nil => exact ⟨s, rfl⟩
  | cons i es ih =>
    obtain ⟨u, hu⟩ : ∃ u, exec i s = .next u := by
      have hi := h i List.mem_cons_self
      cases i with
      | fgf => exact absurd rfl hi.1
      | fgs => exact absurd rfl hi.2
      | _ => exact ⟨_, rfl⟩
    obtain ⟨t, ht⟩ := ih (fun j hj => h j (List.mem_cons_of_mem _ hj)) u
    exact ⟨t, by rw [runEvents, hu]; exact ht⟩

end Sys2Proof.Machine
end

