-- ==== Sys2Proof/Laws/Transition.lean ====
section
/-!
SUPPORT. The inversion of `exec`, said once: the relation `Transition` lists everything an event can do, and `exec`
answers a next state exactly along it. Later proofs take a step apart with `cases` on it.
-/

namespace Sys2Proof.Machine

open Sys2Proof.Safety

/-- The buffer after `RXB` completed a frame (40_frame_receiver.md R125). -/
def closedBuffer (b : Byte) (s : State) : Memory :=
  Memory.write (Memory.write (Memory.write s.rxBuf 31 b) 0 0x00#8) 31 0x00#8

/-- The state after `FGS` (45_foreground.md R230), from the selection it leaves and the average it shows. -/
def refreshed (sel : Chan) (a : Nat) (s : State) : State :=
  { s with
    selection := sel, selPending := false
    digTens := BitVec.ofNat 4 (min a 99 / 10), digUnits := BitVec.ofNat 4 (min a 99 % 10)
    ledSafe := decide (a ≤ 50), ledUnsafe := decide (50 < a), fgPhase := 0#1
    outputs := [.leds (decide (a ≤ 50)) (decide (50 < a))] }

/-- Everything an event can do, with what holds when it does it. -/
inductive Transition : Instr → State → State → Prop where
  | reset (s : State) : Transition .rst s
      { State.reset with schedule := s.schedule, arrivals := s.arrivals,
                         outputs := [.leds false false, .digitEn 0b00#2, .segBcd 0#4] }
  | desync (b : Byte) (s : State) (start : (if s.rxPos = 0#5 then b else s.fb 0) ≠ 0x42#8) :
      Transition (.rxb b) s { s with rxBuf := [], rxPos := 0#5, outputs := [] }
  | store (b : Byte) (s : State) (start : (if s.rxPos = 0#5 then b else s.fb 0) = 0x42#8)
      (open31 : s.rxPos = 31#5 → b = 0x00#8) :
      Transition (.rxb b) s
        { s with rxBuf := Memory.write s.rxBuf s.rxPos.toNat b, rxPos := s.rxPos + 1#5, outputs := [] }
  | publish (b : Byte) (s : State) (valid : validates b s) :
      Transition (.rxb b) s { s with rxBuf := closedBuffer b s, rxPos := 0#5, frameReady := true,
                                     frameRd := frameReadings s, outputs := [] }
  | reject (b : Byte) (s : State) (full : s.rxPos = 31#5) (start : s.fb 0 = 0x42#8) (sentinel : b ≠ 0x00#8)
      (mismatch : ¬validates b s) :
      Transition (.rxb b) s { s with rxBuf := closedBuffer b s, rxPos := 0#5, outputs := [] }
  | edgeA (s : State) (idle : s.debState = .idle) :
      Transition .btna s { s with debState := .debouncing, debCand := .A, outputs := [.debStart] }
  | edgeB (s : State) (idle : s.debState = .idle) :
      Transition .btnb s { s with debState := .debouncing, debCand := .B, outputs := [.debStart] }
  | ignoredA (s : State) (busy : s.debState = .debouncing) : Transition .btna s { s with outputs := [] }
  | ignoredB (s : State) (busy : s.debState = .debouncing) : Transition .btnb s { s with outputs := [] }
  | expiry (s : State) (busy : s.debState = .debouncing) :
      Transition .dbt s { s with debState := .idle, selEvent := s.debCand, selPending := true, outputs := [] }
  | expiryIdle (s : State) (idle : s.debState = .idle) : Transition .dbt s { s with outputs := [] }
  | tickUnits (s : State) (index : s.muxIdx = 0#1) : Transition .muxt s
      { s with muxIdx := 1#1, segBcd := s.digUnits, digitEn := 0b10#2,
               outputs := [.digitEn 0b00#2, .segBcd s.digUnits, .digitEn 0b10#2] }
  | tickTens (s : State) (index : s.muxIdx = 1#1) : Transition .muxt s
      { s with muxIdx := 0#1, segBcd := s.digTens, digitEn := 0b01#2,
               outputs := [.digitEn 0b00#2, .segBcd s.digTens, .digitEn 0b01#2] }
  | record (s : State) (phase : s.fgPhase = 0#1) (ready : s.frameReady = true) : Transition .fgf s
      { recordFrame s.frameRd s with frameReady := false, fgPhase := 1#1, outputs := [] }
  | noFrame (s : State) (phase : s.fgPhase = 0#1) (empty : s.frameReady = false) :
      Transition .fgf s { s with fgPhase := 1#1, outputs := [] }
  | refresh (s : State) (phase : s.fgPhase = 1#1) (sel : Chan) (a : Nat)
      (hsel : sel = if s.selPending = true then s.selEvent else s.selection)
      (ha : a = (s.avg.get (selectedChannel sel)).toNat) : Transition .fgs s (refreshed sel a s)

theorem rxPos_toNat_zero (s : State) : s.rxPos.toNat = 0 ↔ s.rxPos = 0#5 := by
  rw [← BitVec.toNat_inj]; rfl

/-- The start byte as the tests of `RXB` see it (40_frame_receiver.md R122). -/
theorem fb_zero_stored (b : Byte) (s : State) :
    (storeByte b (beginStep s)).fb 0 = if s.rxPos = 0#5 then b else s.fb 0 := by
  rw [fb_storeByte]
  simp only [beginStep_rxPos, fb_beginStep, eq_comm (a := 0), rxPos_toNat_zero]

/-- At the last index the store touches no other byte. -/
theorem fb_stored_last {s : State} (b : Byte) (hp : s.rxPos = 31#5) (a : Nat) :
    (storeByte b (beginStep s)).fb a = if a = 31 then b else s.fb a := by
  rw [fb_storeByte, beginStep_rxPos, hp]; rfl

theorem fb_stored_last_other {s : State} (b : Byte) (hp : s.rxPos = 31#5) (a : Nat) (ha : a < 31) :
    (storeByte b (beginStep s)).fb a = s.fb a := by
  rw [fb_stored_last b hp, if_neg (by omega)]

/-- A byte of a closed buffer. -/
theorem read_closedBuffer (b : Byte) (s : State) (a : Nat) :
    Memory.read (closedBuffer b s) a = if a = 0 ∨ a = 31 then 0x00#8 else s.fb a := by
  simp only [closedBuffer, read_write]
  split_ifs <;> first | rfl | omega

/-- The store at the last index. -/
theorem stored_last {s : State} (b : Byte) (hp : s.rxPos = 31#5) :
    storeByte b (beginStep s) = { s with rxBuf := Memory.write s.rxBuf 31 b, rxPos := 0#5, outputs := [] } := by
  have h : storeByte b (beginStep s) =
      { s with rxBuf := Memory.write s.rxBuf s.rxPos.toNat b, rxPos := s.rxPos + 1#5, outputs := [] } := rfl
  rw [h, hp]
  rfl

/-- A checksum cannot both match and not. -/
theorem not_validates_of_mismatch {b : Byte} {s : State} (h : checksumOk s = false) : ¬validates b s := fun v => by
  rw [(checksumOk_iff s).2 v.2.2.2] at h
  cases h

/-- A closed buffer is canonical. -/
theorem wf_closedBuffer (b : Byte) {s : State} (h : Memory.wf s.rxBuf) : Memory.wf (closedBuffer b s) :=
  wf_write _ (by decide) (wf_write _ (by decide) (wf_write _ (by decide) h))

theorem execRxb_transition (b : Byte) (s : State) : ∃ t, execRxb b s = .next t ∧ Transition (.rxb b) s t := by
  have h31 (hp : s.rxPos = 31#5) : (storeByte b (beginStep s)).fb 31 = b := by rw [fb_stored_last b hp]; rfl
  refine ⟨_, rfl, ?_⟩
  rcases examineFrame_cases s.rxPos (storeByte b (beginStep s)) with
    ⟨h0, h⟩ | ⟨h0, hp, hs, hc, h⟩ | ⟨h0, hp, hs, hc, h⟩ | ⟨h0, hs, h⟩ <;> rw [h]
  · rw [fb_zero_stored] at h0
    exact .desync b s h0
  · have he := fb_stored_last_other b hp
    rw [checksumOk_congr he, checksumOk_iff] at hc
    rw [frameReadings_congr he]
    rw [h31 hp] at hs
    rw [he 0 (by omega)] at h0
    rw [stored_last b hp]
    exact .publish b s ⟨hp, h0, hs, hc⟩
  · have he := fb_stored_last_other b hp
    rw [checksumOk_congr he] at hc
    rw [h31 hp] at hs
    rw [he 0 (by omega)] at h0
    rw [stored_last b hp]
    exact .reject b s hp h0 hs (not_validates_of_mismatch hc)
  · rw [fb_zero_stored] at h0
    exact .store b s h0 (fun hp => h31 hp ▸ hs hp)

theorem next_injective {s t : State} (h : (.next s : Host.Outcome State Fault Refusal) = .next t) : s = t := by
  injection h

theorem refreshed_eq (s : State) :
    { Machine.refresh (consumeSelection (beginStep s)) with fgPhase := 0#1 } =
      refreshed (if s.selPending = true then s.selEvent else s.selection)
        (s.avg.get (selectedChannel (if s.selPending = true then s.selEvent else s.selection))).toNat s := by
  rw [refresh_eq, consumeSelection_eq]
  rfl

/-- If `exec` answers a next state, it is along a transition. -/
theorem transition_of_exec {i : Instr} {s t : State} (h : exec i s = .next t) : Transition i s t := by
  cases i with
  | rst => exact next_injective h ▸ .reset s
  | rxb b =>
    obtain ⟨u, hu, ht⟩ := execRxb_transition b s
    exact next_injective (hu.symm.trans h) ▸ ht
  | btna =>
    cases hd : s.debState with
    | idle =>
      rw [← next_injective h, buttonEdge_idle _ (s := beginStep s) hd]
      exact .edgeA s hd
    | debouncing =>
      rw [← next_injective h, buttonEdge_debouncing _ (s := beginStep s) hd]
      exact .ignoredA s hd
  | btnb =>
    cases hd : s.debState with
    | idle =>
      rw [← next_injective h, buttonEdge_idle _ (s := beginStep s) hd]
      exact .edgeB s hd
    | debouncing =>
      rw [← next_injective h, buttonEdge_debouncing _ (s := beginStep s) hd]
      exact .ignoredB s hd
  | dbt =>
    cases hd : s.debState with
    | idle =>
      rw [← next_injective h, debounceExpiry_idle (s := beginStep s) hd]
      exact .expiryIdle s hd
    | debouncing =>
      rw [← next_injective h, debounceExpiry_debouncing (s := beginStep s) hd]
      exact .expiry s hd
  | muxt =>
    rcases execMuxt_eq s with ⟨hx, e⟩ | ⟨hx, e⟩
    · exact next_injective (e.symm.trans h) ▸ .tickUnits s hx
    · exact next_injective (e.symm.trans h) ▸ .tickTens s hx
  | fgf =>
    obtain ⟨hp, ⟨hr, rfl⟩ | ⟨hr, rfl⟩⟩ := execFgf_next h
    · exact .record s hp hr
    · exact .noFrame s hp hr
  | fgs =>
    obtain ⟨hp, rfl⟩ := execFgs_next h
    rw [refreshed_eq]
    exact .refresh s hp _ _ rfl rfl

/-- A transition is determined by its event and the state before it. -/
theorem transition_unique {i : Instr} {s t u : State} (ht : Transition i s t) (hu : Transition i s u) : t = u := by
  cases ht <;> cases hu <;> first
    | rfl
    | (simp_all; done)
    | simp_all [validates]

/-- `exec` answers a next state along every transition. -/
theorem exec_of_transition {i : Instr} {s t : State} (h : Transition i s t) : exec i s = .next t := by
  have key : ∃ u, exec i s = .next u := by
    cases h with
    | record _ hp _ => exact ⟨_, if_pos hp⟩
    | noFrame _ hp _ => exact ⟨_, if_pos hp⟩
    | refresh _ hp _ _ _ _ => exact ⟨_, if_pos hp⟩
    | _ => exact ⟨_, rfl⟩
  obtain ⟨u, hu⟩ := key
  rw [hu, transition_unique h (transition_of_exec hu)]

/-- What one event can do, said once. -/
theorem exec_next_iff {i : Instr} {s t : State} : exec i s = .next t ↔ Transition i s t :=
  ⟨transition_of_exec, exec_of_transition⟩

end Sys2Proof.Machine
end

