-- ==== Sys2Proof/Laws/Execution.lean ====
section
/-!
SUPPORT. Infinite executions: no event touches the record of coming events, a step with nothing scheduled is never
refused, what one event of a run can do, how a run is built, and how a property lasts along it.
-/

namespace Sys2Proof.Machine

/-- The events still to come, and the count of the environment's choices, are no event's business. -/
theorem exec_keeps_bookkeeping {i : Instr} {s t : State} (h : exec i s = .next t) :
    t.schedule = s.schedule ∧ t.arrivals = s.arrivals := by
  cases transition_of_exec h <;> exact ⟨rfl, rfl⟩

/-- A foreground turn is always enabled (45_foreground.md R226). -/
theorem exec_foregroundTurn (s u : State) (h : u.fgPhase = s.fgPhase) : ∃ t, exec (foregroundTurn s) u = .next t := by
  have h01 : s.fgPhase = 0#1 ∨ s.fgPhase = 1#1 := by generalize s.fgPhase = x; revert x; decide
  rcases h01 with hp | hp
  · rw [foregroundTurn, if_pos hp]; exact ⟨_, if_pos (h.trans hp)⟩
  · rw [foregroundTurn, if_neg (by rw [hp]; decide)]; exact ⟨_, if_pos (h.trans hp)⟩

/-- An event that is not the foreground's is always enabled (30_encoding.md R103). -/
theorem exec_arrival {i : Instr} (h : i.agent ≠ .foreground) (s : State) : ∃ t, exec i s = .next t := by
  cases i with
  | fgf => exact absurd rfl h
  | fgs => exact absurd rfl h
  | _ => exact ⟨_, rfl⟩

/-- A step with nothing scheduled answers a next state, again with nothing scheduled. -/
theorem step_unscheduled_next {s : State} (h : s.schedule = []) : ∃ t, step s = .next t ∧ t.schedule = [] := by
  have key : ∃ t, exec (unscheduledEvent s) { s with arrivals := s.arrivals + 1 } = .next t := by
    rcases unscheduledEvent_cases s with ⟨-, ha⟩ | ⟨-, hf⟩
    · exact exec_arrival ha _
    · rw [hf]; exact exec_foregroundTurn s _ rfl
  obtain ⟨t, ht⟩ := key
  exact ⟨t, (step_unscheduled h).trans ht, (exec_keeps_bookkeeping ht).1.trans h⟩

theorem takes_of_exec {i : Instr} {s t : State} (h : exec i s = .next t) : takes i s t := ⟨s.schedule, s.arrivals, h⟩

/-- If a step answers a next state, some event leads there. -/
theorem takes_of_step {s t : State} (h : step s = .next t) : ∃ i, takes i s t := by
  obtain ⟨i, u, hf, hx⟩ := step_next h
  rcases fetch_ok hf with ⟨-, -, rfl⟩ | ⟨w, rest, -, -, rfl⟩
  · exact ⟨i, s.schedule, s.arrivals + 1, hx⟩
  · exact ⟨i, rest, s.arrivals, hx⟩

/-- What one event of a run does to the phase (45_foreground.md R226). -/
theorem takes_phase {i : Instr} {s t : State} (h : takes i s t) :
    (i = .rst → t.fgPhase = 0#1) ∧ (i = .fgf → s.fgPhase = 0#1 ∧ t.fgPhase = 1#1) ∧
      (i = .fgs → s.fgPhase = 1#1 ∧ t.fgPhase = 0#1) ∧
      (i ≠ .rst → i.agent ≠ .foreground → t.fgPhase = s.fgPhase) := by
  obtain ⟨q, n, h⟩ := h
  cases transition_of_exec h <;> simp_all [Instr.agent, refreshed]

/-- A sequence of states from one that can always be continued. -/
theorem exists_sequence {R : Nat → State → State → Prop} {P : Nat → State → Prop} {s : State}
    (next : ∀ n s, P n s → ∃ t, R n s t ∧ P (n + 1) t) (start : P 0 s) :
    ∃ st : Nat → State, st 0 = s ∧ ∀ n, R n (st n) (st (n + 1)) := by
  choose f hf using next
  let seq : (n : Nat) → { s // P n s } := fun n => Nat.rec ⟨s, start⟩ (fun n x => ⟨f n x.1 x.2, (hf n x.1 x.2).2⟩) n
  exact ⟨fun n => (seq n).1, rfl, fun n => (hf n (seq n).1 (seq n).2).1⟩

/-- A property lasts from one point of a run to a later one, if no event between them ends it. -/
theorem lasts {Q : Nat → Prop} {n m : Nat} (start : Q n) (keep : ∀ k, n ≤ k → k < m → Q k → Q (k + 1)) (hm : n ≤ m) :
    Q m := by
  induction m, hm using Nat.le_induction with
  | base => exact start
  | succ m hm ih => exact keep m hm (Nat.lt_succ_self m) (ih fun k hk hkm => keep k hk (Nat.lt_succ_of_lt hkm))

/-- If something comes from a point on, it comes a first time. -/
theorem exists_first {P : Nat → Prop} {n : Nat} (h : ∃ m, n ≤ m ∧ P m) :
    ∃ m, n ≤ m ∧ P m ∧ ∀ k, n ≤ k → k < m → ¬P k := by
  classical
  exact ⟨Nat.find h, (Nat.find_spec h).1, (Nat.find_spec h).2, fun k hk hkm hp => Nat.find_min h hkm ⟨hk, hp⟩⟩

end Sys2Proof.Machine
end

