-- ==== Sys2Proof/Laws/PerInstr.lean ====
section
/-!
SUPPORT. One family over the instructions as syntax: the encoding of an event is spelled by the row of the opcode table
that has its mnemonic (30_encoding.md R101).
-/

namespace Sys2Proof.Laws.EncodesInItsRow

/-- Some row of the table has the event's mnemonic and matches its encoding. -/
def Statement (i : Instr) : Prop := ∃ r ∈ opcodeTable, r.mnemonic = i.mnemonic ∧ r.spells (encode i) = true

theorem rst : Statement .rst := ⟨_, List.mem_iff_getElem.2 ⟨0, by decide, rfl⟩, rfl, rfl⟩

theorem rxb (b : Byte) : Statement (.rxb b) := by
  refine ⟨_, List.mem_iff_getElem.2 ⟨1, by decide, rfl⟩, rfl, ?_⟩
  revert b
  decide

theorem btna : Statement .btna := ⟨_, List.mem_iff_getElem.2 ⟨2, by decide, rfl⟩, rfl, rfl⟩

theorem btnb : Statement .btnb := ⟨_, List.mem_iff_getElem.2 ⟨3, by decide, rfl⟩, rfl, rfl⟩

theorem dbt : Statement .dbt := ⟨_, List.mem_iff_getElem.2 ⟨4, by decide, rfl⟩, rfl, rfl⟩

theorem muxt : Statement .muxt := ⟨_, List.mem_iff_getElem.2 ⟨5, by decide, rfl⟩, rfl, rfl⟩

theorem fgf : Statement .fgf := ⟨_, List.mem_iff_getElem.2 ⟨6, by decide, rfl⟩, rfl, rfl⟩

theorem fgs : Statement .fgs := ⟨_, List.mem_iff_getElem.2 ⟨7, by decide, rfl⟩, rfl, rfl⟩

end Sys2Proof.Laws.EncodesInItsRow
end

