-- ==== Sys2Proof/Tests/Slice0.lean ====
section
/-!
SUPPORT. Tests against 95_test_vectors.md and the rules' worked examples: the checks of WellFormed on ill-formed terms,
the decoder on words written out from the encoding, one step of each event; and, for every statement with hypotheses, a
witness that meets them. An expected value's source is named in its docstring.
-/

namespace Sys2Proof.Tests

open Sys2Proof Sys2Proof.Machine Sys2Proof.Safety

/-! WellFormed. -/

/-- V93 and V94: none of these words spells an event. -/
theorem test_reserved_words_are_illegal :
    [0x001#12, 0x2FF#12, 0x701#12, 0x800#12, 0x942#12, 0xFFF#12].all (fun w => !legalWord w) = true := by decide

/-- V90 to V92. -/
theorem test_event_words_are_legal :
    [0x000#12, 0x142#12, 0x100#12, 0x1FF#12, 0x200#12, 0x300#12, 0x400#12, 0x500#12, 0x600#12, 0x700#12].all legalWord =
      true := by decide

/-- No word spells the events of two rows. -/
theorem test_rows_do_not_overlap : opcodeTable.Pairwise (fun r q => r.overlaps q = false) := by decide

/-- Two rows that could be confused are told to overlap. -/
theorem test_overlap_is_seen : (⟨"RXB", .ev8, 0x100#12, 0xF00#12⟩ : OpcodeRow).overlaps ⟨"X", .ev0, 0x142#12, 0xFFF#12⟩ =
    true := by decide

/-- Every event is well-formed, with its operand at either end of its range. -/
theorem test_events_are_well_formed :
    [Instr.rst, .rxb 0x00#8, .rxb 0xFF#8, .btna, .btnb, .dbt, .muxt, .fgf, .fgs].all Instr.wellFormed = true := by decide

/-- V42: 100 and 127 are outside the domain of `ENC`. -/
theorem test_enc_domain : encDomain 100#7 = false ∧ encDomain 127#7 = false ∧ encDomain 99#7 = true := by decide

/-- 92_eei_decisions.md: the two selectable channels are distinct. -/
theorem test_selectable_channels : selChannelsWellFormed .ch2 .ch2 = false ∧
    selChannelsWellFormed Config.selACh Config.selBCh = true := by decide

/-! Decode and encode (V90 to V94). Each word is written as kind and data, bit by bit. -/

theorem test_decode_rst : decode 0b0000_00000000#12 = .ok .rst := by rfl
theorem test_decode_rxb : decode 0b0001_01000010#12 = .ok (.rxb 0x42#8) := by rfl
theorem test_decode_rxb_ends : decode 0b0001_00000000#12 = .ok (.rxb 0x00#8) ∧
    decode 0b0001_11111111#12 = .ok (.rxb 0xFF#8) := ⟨rfl, rfl⟩
theorem test_decode_btna : decode 0b0010_00000000#12 = .ok .btna := by rfl
theorem test_decode_btnb : decode 0b0011_00000000#12 = .ok .btnb := by rfl
theorem test_decode_dbt : decode 0b0100_00000000#12 = .ok .dbt := by rfl
theorem test_decode_muxt : decode 0b0101_00000000#12 = .ok .muxt := by rfl
theorem test_decode_fgf : decode 0b0110_00000000#12 = .ok .fgf := by rfl
theorem test_decode_fgs : decode 0b0111_00000000#12 = .ok .fgs := by rfl

/-- V93 and V94. -/
theorem test_decode_refuses : decode 0x701#12 = .error (.nonzeroData 7#4 1#8) ∧
    decode 0x2FF#12 = .error (.nonzeroData 2#4 0xFF#8) ∧ decode 0x942#12 = .error (.reservedKind 9#4) ∧
    decode 0xFFF#12 = .error (.reservedKind 15#4) := ⟨rfl, rfl, rfl, rfl⟩

/-- P1 and P3: the words of the spec's programs. -/
theorem test_encode : encode (.rxb 0x7B#8) = 0x17B#12 ∧ encode .fgf = 0x600#12 ∧ encode .muxt = 0x500#12 := by decide

/-- The number of an instruction, as the opcode table gives its bits. -/
theorem test_table_word : decodeTableWord 16 0x1DD = some (.rxb 0xDD#8) ∧ decodeTableWord 12 0x600 = some .fgf ∧
    decodeTableWord 16 0x001 = none ∧ decodeTableWord 16 0x1142 = none := ⟨rfl, rfl, rfl, rfl⟩

/-! The state (R20, R51). -/

/-- R20: 20 variables, 579 bits. -/
theorem test_state_is_counted : stateVariables.length = 20 ∧ (stateVariables.map (·.2)).sum = 579 := by decide

theorem test_reset_memory_is_canonical : Memory.wf State.reset.rxBuf := by decide

/-! Helpers: the next state, if there is one. -/

/-- The next state of an outcome. -/
def next? : Host.Outcome State Fault Refusal → Option State
  | .next t => some t
  | .fault _ => none
  | .refused _ => none

/-- A view of the next state of an event. -/
def after {α : Type} (view : State → α) (i : Instr) (s : State) : Option α := (next? (exec i s)).map view

/-- The next state exists, if some view of it does. -/
theorem next_of_after {α : Type} {view : State → α} {i : Instr} {s : State} {a : α} (h : after view i s = some a) :
    ∃ t, exec i s = .next t ∧ view t = a := by
  unfold after at h
  cases he : exec i s with
  | next t => rw [he] at h; exact ⟨t, rfl, by simpa [next?] using h⟩
  | fault f => rw [he] at h; simp [next?] at h
  | refused r => rw [he] at h; simp [next?] at h

/-- `F50` after its first 31 bytes (V1). -/
def almostF50 : State := { State.reset with rxBuf := [(0, 0x42#8), (13, 0x32#8), (30, 0x74#8)], rxPos := 31#5 }

/-- V6 after its first 31 bytes. -/
def almostV6 : State := { State.reset with rxBuf := [(0, 0x42#8), (13, 0x32#8), (30, 0x75#8)], rxPos := 31#5 }

/-- A frame under way, at cursor 5 (V17). -/
def atFive : State := { State.reset with rxBuf := [(0, 0x42#8), (1, 0x4D#8)], rxPos := 5#5 }

/-- A debounce of line B under way (V54). -/
def debouncingB : State := { State.reset with debState := .debouncing, debCand := .B }

/-- The start of V60. -/
def digits47 : State := { State.reset with digTens := 4#4, digUnits := 7#4 }

/-- V33: `avg = (0, 60, 40)`, at the second step of a pass. -/
def averages6040 : State := { State.reset with avg := ⟨0#16, 60#16, 40#16⟩, fgPhase := 1#1 }

/-- A frame and a selection of B are pending (45_foreground.md R236). -/
def bothPending : State :=
  { State.reset with frameReady := true, frameRd := ⟨0#16, 40#16, 160#16⟩, selPending := true, selEvent := .B,
                     hist := ⟨#v[0#16, 0#16, 0#16, 0#16], #v[40#16, 0#16, 0#16, 0#16], #v[80#16, 0#16, 0#16, 0#16]⟩,
                     histPos := ⟨1#2, 1#2, 1#2⟩, avg := ⟨0#16, 10#16, 20#16⟩, digTens := 1#4, ledSafe := true }

/-! One step of each event. -/

/-- V80, V81: reset in the middle of a frame and of a debounce. -/
theorem test_rst : after (fun t => (t.fb 13, t.rxPos, t.debState, t.digTens)) .rst
    { almostF50 with debState := .debouncing, digTens := 4#4 } = some (0#8, 0#5, .idle, 0#4) := by decide

/-- R280: the output list of reset. -/
theorem test_rst_outputs : after (·.outputs) .rst digits47 = some [.leds false false, .digitEn 0b00#2, .segBcd 0#4] := by
  decide

/-- V1: the last byte of `F50`. -/
theorem test_rxb_accepts : after (fun t => (t.frameReady, t.frameRd, t.rxPos, t.rxBuf)) (.rxb 0x01#8) almostF50 =
    some (true, ⟨0#16, 50#16, 0#16⟩, 0#5, [(13, 0x32#8), (30, 0x74#8)]) := by decide

/-- V6, V8, V10 and V17: rejected; sentinel zero; desync; an ordinary byte 0x42. -/
theorem test_rxb_others :
    after (fun t => (t.frameReady, t.frameRd, t.rxPos, t.rxBuf)) (.rxb 0x01#8) almostV6 =
      some (false, ⟨0#16, 0#16, 0#16⟩, 0#5, [(13, 0x32#8), (30, 0x75#8)]) ∧
    after (fun t => (t.frameReady, t.rxPos, t.rxBuf)) (.rxb 0x00#8) almostF50 =
      some (false, 0#5, almostF50.rxBuf) ∧
    after (fun t => (t.rxPos, t.rxBuf)) (.rxb 0x00#8) { almostF50 with rxPos := 0#5 } = some (0#5, []) ∧
    after (fun t => (t.rxPos, t.rxBuf)) (.rxb 0x42#8) atFive =
      some (6#5, [(0, 0x42#8), (1, 0x4D#8), (5, 0x42#8)]) :=
  ⟨by decide, by decide, by decide, by decide⟩

/-- V50. -/
theorem test_btna : after id .btna State.reset =
    some { State.reset with debState := .debouncing, debCand := .A, outputs := [.debStart] } := by decide

/-- V52, with the lines exchanged: the second edge is ignored. -/
theorem test_btna_while_debouncing : after id .btna debouncingB = some debouncingB := by decide

/-- V54. -/
theorem test_btnb : after id .btnb State.reset =
    some { State.reset with debState := .debouncing, debCand := .B, outputs := [.debStart] } := by decide

/-- V54, V56: the expiry posts the candidate, over an event that was pending. -/
theorem test_dbt : after (fun t => (t.debState, t.debCand, t.selPending, t.selEvent, t.selection)) .dbt
    { debouncingB with selPending := true } = some (.idle, .B, true, .B, .A) := by decide

/-- V53. -/
theorem test_dbt_while_idle : after id .dbt State.reset = some State.reset := by decide

/-- V60, first tick: pairs (00,0), (00,7), (10,7). -/
theorem test_muxt : after (fun t => (t.muxIdx, recordedPairs (0b00#2, 0#4) t.outputs)) .muxt digits47 =
    some (1#1, [(0b00#2, 0#4), (0b00#2, 0#4), (0b00#2, 7#4), (0b10#2, 7#4)]) := by decide

/-- V60, second tick: pairs (00,7), (00,4), (01,4). -/
theorem test_muxt_again : after (fun t => (t.muxIdx, t.digitEn, t.segBcd, t.outputs)) .muxt
    { digits47 with muxIdx := 1#1, digitEn := 0b10#2, segBcd := 7#4 } =
      some (0#1, 0b01#2, 4#4, [.digitEn 0b00#2, .segBcd 4#4, .digitEn 0b01#2]) := by decide

/-- V28: entry 3 of each ring is written, the cursors wrap, the averages are floors. -/
theorem test_fgf : after (fun t => (t.hist.c2, t.histPos, t.avg, t.frameReady)) .fgf
    { State.reset with frameReady := true, frameRd := ⟨7#16, 8#16, 9#16⟩, histPos := ⟨3#2, 3#2, 3#2⟩ } =
      some (#v[0#16, 0#16, 0#16, 8#16], ⟨0#2, 0#2, 0#2⟩, ⟨1#16, 2#16, 2#16⟩, false) := by decide

/-- V70 and V73: nothing but the phase; and the second one is refused. -/
theorem test_fgf_phases : after id .fgf State.reset = some { State.reset with fgPhase := 1#1 } ∧
    after id .fgf { State.reset with fgPhase := 1#1 } = none := by decide

/-- V33: both selections. -/
theorem test_fgs :
    after (fun t => (t.ledSafe, t.ledUnsafe, t.digTens, t.digUnits)) .fgs averages6040 = some (false, true, 6#4, 0#4) ∧
    after (fun t => (t.ledSafe, t.ledUnsafe, t.digTens, t.digUnits)) .fgs { averages6040 with selection := .B } =
      some (true, false, 4#4, 0#4) := by decide

/-- The worked example of 45_foreground.md R230, and V72. -/
theorem test_fgs_selects : after (fun t => (t.selection, t.selPending, t.digTens, t.digUnits, t.ledUnsafe, t.fgPhase)) .fgs
    { State.reset with selPending := true, selEvent := .B, avg := ⟨0#16, 0#16, 125#16⟩, fgPhase := 1#1 } =
      some (.B, false, 9#4, 9#4, true, 0#1) ∧ after id .fgs State.reset = none := by decide

/-! The functions inside a step. -/

/-- V18. -/
theorem test_field16 : field16 0x01#8 0x23#8 = 291#16 ∧ field16 0xFF#8 0xFF#8 = 65535#16 ∧
    field16 0x80#8 0x00#8 = 32768#16 := by decide

/-- V1: the checksum of `F50`. -/
theorem test_checksum : sum30 almostF50 = 116#16 ∧ ckval almostF50 = 116#16 ∧ ckval almostV6 = 117#16 := by decide

/-- V20 to V25. -/
theorem test_average : ringAverage #v[1#16, 2#16, 3#16, 4#16] = 2#16 ∧ ringAverage #v[3#16, 0#16, 0#16, 0#16] = 0#16 ∧
    ringAverage #v[65535#16, 65535#16, 65535#16, 0#16] = 49151#16 ∧
    ringAverage #v[0#16, 0#16, 0#16, 204#16] = 51#16 := by decide

/-- V27. -/
theorem test_clamp : clamp 0#16 = 0 ∧ clamp 99#16 = 99 ∧ clamp 100#16 = 99 ∧ clamp 65535#16 = 99 := by decide

/-- V40 and V42. -/
theorem test_enc : encodeBcd7 19#7 = some (1#4, 9#4) ∧ encodeBcd7 80#7 = some (8#4, 0#4) ∧ encodeBcd7 100#7 = none := by
  decide

/-- V41 and V42: the procedure itself, also where it is not to be relied on. -/
theorem test_double_dabble : encodeDoubleDabble 47#7 = (4#4, 7#4) ∧ encodeDoubleDabble 100#7 = (0#4, 0#4) ∧
    encodeDoubleDabble 127#7 = (2#4, 7#4) := by decide

/-- 00_scope.md R12: the codes of the enumerations. -/
theorem test_codes : chanCode .B = 1#1 ∧ debStateCode .debouncing = 1#1 ∧ indicatorCode .isUnsafe = 1#1 := by decide

/-! The step. -/

/-- A scheduled edge runs, and is no longer scheduled. -/
theorem test_step_scheduled : next? (step { State.reset with schedule := [0x200#12, 0x400#12] }) =
    some { State.reset with debState := .debouncing, outputs := [.debStart], schedule := [0x400#12] } := by decide

/-- A placed event runs as the first after reset. -/
theorem test_step_placed : next? (step (State.reset.withFetchWord 16 0x1DD)) = after id (.rxb 0xDD#8) State.reset := by decide

/-! Witnesses: states and operands that meet the hypotheses of the statements. -/

theorem witness_DecodeAndEncodeAgree : (Instr.rxb 0xFF#8).wellFormed = true ∧ decode 0x1FF#12 = .ok (.rxb 0xFF#8) :=
  ⟨rfl, rfl⟩

theorem witness_ReservedWordsAreRefused : 2048 ≤ (0x800#12).toNat ∧
    ((0x7FF#12).toNat < 2048 ∧ (0x7FF#12).toNat / 256 ≠ 1 ∧ (0x7FF#12).toNat % 256 ≠ 0) ∧
    ((0x1FF#12).toNat < 2048 ∧ (0x1FF#12).toNat / 256 = 1) ∧ ((0x700#12).toNat < 2048 ∧ (0x700#12).toNat % 256 = 0) ∧
    decode 0x800#12 = .error (.reservedKind 8#4) ∧ { State.reset with schedule := [0x800#12] }.schedule = 0x800#12 :: [] :=
  ⟨by decide, by decide, by decide, by decide, rfl, rfl⟩

theorem witness_DecoderMatchesTheOpcodeTable : decode 0x142#12 = .ok (.rxb 0x42#8) := rfl

theorem witness_StepRunsTheScheduledEvent :
    { State.reset with schedule := [0x142#12] }.schedule = 0x142#12 :: [] ∧ decode 0x142#12 = .ok (.rxb 0x42#8) :=
  ⟨rfl, rfl⟩

theorem witness_StepRunsAnArrivalOrTheForegroundTurn : State.reset.schedule = [] ∧ State.reset.fgPhase = 0#1 ∧
    averages6040.schedule = [] ∧ averages6040.fgPhase = 1#1 := by decide

theorem witness_PlacedInstructionRunsNext : decodeTableWord 16 0x142 = some (.rxb 0x42#8) := rfl

theorem witness_EnabledEventsHaveANextState : Instr.rxb 0x00#8 ≠ .fgf ∧ Instr.rxb 0x00#8 ≠ .fgs ∧
    State.reset.fgPhase = 0#1 ∧ averages6040.fgPhase = 1#1 ∧ State.reset.debState = .idle := by decide

/-- Both sides of the equivalence hold for one list, and neither for another. -/
theorem witness_ExecutionsAreTheAlternatingInterleavings :
    alternates State.reset.fgPhase [.fgf, .btna, .fgs] ∧ ¬alternates State.reset.fgPhase [.btna, .fgs] := by
  simp [alternates, State.reset]

/-- A state in the middle of a frame, of a pass and of a debounce meets the invariant. -/
def busy : State :=
  { State.reset with rxBuf := [(0, 0x42#8), (13, 0x32#8)], rxPos := 14#5, frameRd := ⟨0#16, 40#16, 160#16⟩,
                     hist := ⟨#v[0#16, 0#16, 0#16, 0#16], #v[40#16, 0#16, 0#16, 0#16], #v[80#16, 0#16, 0#16, 0#16]⟩,
                     histPos := ⟨1#2, 1#2, 1#2⟩, avg := ⟨0#16, 10#16, 20#16⟩, debState := .debouncing, digTens := 1#4,
                     muxIdx := 1#1, digitEn := 0b10#2, ledSafe := true, schedule := [0x400#12] }

theorem witness_StepKeepsTheInvariant : CoreInv busy ∧ ∃ t, step busy = .next t :=
  ⟨⟨⟨by decide, by decide, by decide, by decide⟩, ⟨by decide, fun c => by cases c <;> decide⟩,
    ⟨by decide, by decide, by decide, by decide⟩, ⟨by decide, by decide, by decide⟩⟩, _, rfl⟩

/-- At cursor 0, at cursor 5, and at the last index with a sentinel of zero. -/
theorem witness_RxbStoresAnOrdinaryByte :
    ((if State.reset.rxPos = 0#5 then 0x42#8 else State.reset.fb 0) = 0x42#8 ∧ (State.reset.rxPos = 31#5 → 0x42#8 = 0x00#8)) ∧
    ((if atFive.rxPos = 0#5 then 0xFF#8 else atFive.fb 0) = 0x42#8 ∧ (atFive.rxPos = 31#5 → 0xFF#8 = 0x00#8)) ∧
    ((if almostF50.rxPos = 0#5 then 0x00#8 else almostF50.fb 0) = 0x42#8 ∧
      (almostF50.rxPos = 31#5 → 0x00#8 = 0x00#8)) := by decide

/-- In the reset state, which meets the receiver's invariants, and at cursor 31 in a state that does not. -/
theorem witness_RxbDesyncDiscardsEverything :
    ((if State.reset.rxPos = 0#5 then 0x41#8 else State.reset.fb 0) ≠ 0x42#8 ∧ ReceiverInv State.reset) ∧
    (if { State.reset with rxPos := 31#5 }.rxPos = 0#5 then 0x42#8 else { State.reset with rxPos := 31#5 }.fb 0) ≠ 0x42#8 :=
  ⟨⟨by decide, by decide, by decide, by decide, by decide⟩, by decide⟩

/-- With a checksum that matches (V1) and with one that does not (V6). -/
theorem witness_RxbCompletesAFrame :
    (almostF50.rxPos = 31#5 ∧ almostF50.fb 0 = 0x42#8 ∧ 0x01#8 ≠ 0x00#8 ∧ validates 0x01#8 almostF50) ∧
    (almostV6.rxPos = 31#5 ∧ almostV6.fb 0 = 0x42#8 ∧ 0x01#8 ≠ 0x00#8 ∧ ¬validates 0x01#8 almostV6) := by
  unfold validates
  decide

theorem witness_OnlyValidFramesReachTheMailbox :
    ∃ t, exec (.rxb 0x01#8) almostF50 = .next t ∧ Instr.rxb 0x01#8 ≠ .rst ∧ t.frameRd ≠ almostF50.frameRd := by
  obtain ⟨t, ht, hr⟩ := next_of_after (view := (·.frameRd)) (a := ⟨0#16, 50#16, 0#16⟩)
    (show after (·.frameRd) (.rxb 0x01#8) almostF50 = some _ by decide)
  exact ⟨t, ht, by decide, by rw [hr]; decide⟩

/-- `F50` (95_test_vectors.md). -/
def f50 : Frame :=
  #v[0x42#8, 0#8, 0#8, 0#8, 0#8, 0#8, 0#8, 0#8, 0#8, 0#8, 0#8, 0#8, 0#8, 0x32#8, 0#8, 0#8,
     0#8, 0#8, 0#8, 0#8, 0#8, 0#8, 0#8, 0#8, 0#8, 0#8, 0#8, 0#8, 0#8, 0#8, 0x74#8, 0x01#8]

/-- The frame of V6. -/
def v6 : Frame := f50.set 30 0x75#8

theorem f50_valid : validFrame f50 := by unfold validFrame; decide

theorem v6_not_valid : ¬validFrame v6 := by unfold validFrame; decide

/-- `VFRAME 0 50 0` is `F50`. -/
theorem test_vframe : vframe 0#16 50#16 0#16 = f50 := by decide

/-- P5 and P6, shortened: the words of a script. -/
theorem test_assemble : (assemble [.event .rst, .event (.rxb 0x42#8), .vframe 1#16 2#16 3#16, .pass]).length = 36 ∧
    (assemble [.event .rst, .event (.rxb 0x05#8), .frame f50, .pass]).take 4 = [0x000#12, 0x105#12, 0x142#12, 0x100#12] ∧
    (assemble [.frame f50, .pass]).drop 30 = [0x174#12, 0x101#12, 0x600#12, 0x700#12] := by decide

/-- The bytes of a frame, with a tick and an edge before them. -/
def interleaved (f : Frame) : List Instr := .muxt :: .btnb :: frameEvents f

theorem witness_ValidFrameIsAccepted : validFrame f50 ∧ State.reset.rxPos = 0#5 ∧
    receivedBytes (interleaved f50) = f50.toList ∧ .rst ∉ interleaved f50 ∧
    (interleaved f50).getLast? = some (.rxb f50[31]) ∧ ∃ t, runEvents (interleaved f50) State.reset = .next t :=
  ⟨f50_valid, rfl, by decide, by decide, by decide, runEvents_interrupts (by decide) _⟩

theorem witness_InvalidFrameIsDropped : v6[0] = 0x42#8 ∧ ¬validFrame v6 ∧ State.reset.rxPos = 0#5 ∧
    receivedBytes (interleaved v6) = v6.toList ∧ .rst ∉ interleaved v6 ∧ .fgf ∉ interleaved v6 ∧
    ∃ t, runEvents (interleaved v6) State.reset = .next t :=
  ⟨by decide, v6_not_valid, rfl, by decide, by decide, by decide, runEvents_interrupts (by decide) _⟩

/-- The frame of V4, and that of V5: both fields of a sum that is a multiple of 255. -/
def v4 : Frame := ((f50.set 1 0xBD#8).set 13 0#8).set 29 0x01#8 |>.set 30 0x00#8

def v5 : Frame := (v4.set 29 0x00#8).set 30 0xFF#8

/-- V4, V5 and V6: the frame is valid by the first alternative, by the second, by neither. -/
theorem witness_ChecksumFieldSolutions : (v4[0] = 0x42#8 ∧ v4[31] ≠ 0x00#8 ∧ validFrame v4) ∧
    (v5[0] = 0x42#8 ∧ v5[31] ≠ 0x00#8 ∧ validFrame v5) ∧ (v6[0] = 0x42#8 ∧ v6[31] ≠ 0x00#8 ∧ ¬validFrame v6) := by
  unfold validFrame
  decide

/-- A stale byte at the cursor itself, and the events that overwrite it. -/
theorem witness_StaleBytesAreUnobservable :
    sameButStaleBytes atFive { atFive with rxBuf := [(0, 0x42#8), (1, 0x4D#8), (5, 0x07#8)] } ∧
    ∃ t, runEvents [.muxt, .rxb 0x42#8] atFive = .next t := by
  refine ⟨⟨rfl, fun a ha => ?_⟩, runEvents_interrupts (by decide) _⟩
  have h : ∀ b : Fin 5, State.fb { atFive with rxBuf := [(0, 0x42#8), (1, 0x4D#8), (5, 0x07#8)] } b = atFive.fb b := by decide
  exact h ⟨a, ha⟩

theorem witness_CanonicalBuffersThatReadAlikeAreEqual :
    Memory.wf almostF50.rxBuf ∧ Memory.wf (Memory.write [(13, 0x32#8), (30, 0x74#8)] 0 0x42#8) ∧
    ∀ a, Memory.read almostF50.rxBuf a = Memory.read (Memory.write [(13, 0x32#8), (30, 0x74#8)] 0 0x42#8) a :=
  ⟨by decide, by decide, fun _ => rfl⟩

theorem witness_FgfRecordsTheFrame : (bothPending.fgPhase = 0#1 ∧ bothPending.frameReady = true) ∧
    (State.reset.fgPhase = 0#1 ∧ State.reset.frameReady = false) ∧ averages6040.fgPhase = 1#1 := by decide

/-- Five readings, from a zero-filled ring whose cursor stands at its last entry. -/
theorem witness_RingIsASlidingWindow :
    (∀ j : BitVec 2, ringRead ({ State.reset with histPos := ⟨3#2, 3#2, 3#2⟩ }.hist.get .ch2) j = 0#16) ∧
    (List.replicate 5 (⟨7#16, 8#16, 9#16⟩ : PerChannel Reading)) ≠ [] := by decide

theorem witness_ConstantInputAveragesToItself :
    4 ≤ (List.replicate 4 (⟨7#16, 65535#16, 9#16⟩ : PerChannel Reading)).length ∧
    ∀ r ∈ List.replicate 4 (⟨7#16, 65535#16, 9#16⟩ : PerChannel Reading), r.get .ch2 = 65535#16 := by decide

/-- By an `FGS` from dark lines, and by another event from a lit line. -/
theorem witness_IndicatorStaysLit : (∃ t, exec .fgs averages6040 = .next t ∧ Instr.fgs ≠ .rst) ∧
    ∃ t, exec .fgf bothPending = .next t ∧ Instr.fgf ≠ .rst ∧ bothPending.ledUnsafe = !bothPending.ledSafe :=
  ⟨⟨_, rfl, by decide⟩, _, rfl, by decide, by decide⟩

theorem witness_ButtonEdgeStartsADebounce : State.reset.debState = .idle ∧ debouncingB.debState = .debouncing := by decide

/-- An edge while debouncing; an expiry and a reset that end it. -/
theorem witness_EdgeWhileDebouncingIsIgnored :
    (Instr.btna.agent = .buttonEdge ∧ Instr.btnb.agent = .buttonEdge ∧ debouncingB.debState = .debouncing) ∧
    (∃ t, exec .dbt debouncingB = .next t ∧ t.debState = .idle) ∧ ∃ t, exec .rst debouncingB = .next t ∧ t.debState = .idle :=
  ⟨by decide, ⟨_, rfl, rfl⟩, _, rfl, rfl⟩

theorem witness_DebounceExpiryPostsTheCandidate : debouncingB.debState = .debouncing := by decide

theorem witness_DebounceExpiryWhileIdleIsANoOp : State.reset.debState = .idle := by decide

/-- V52 and its mirror, with a tick and a byte between. -/
theorem witness_EdgeThenExpiryPostsThatLine : Instr.btna.agent = .buttonEdge ∧ Instr.btnb.agent = .buttonEdge ∧
    State.reset.debState = .idle ∧ .dbt ∉ [Instr.btnb, .muxt, .rxb 0x42#8] ∧ .rst ∉ [Instr.btnb, .muxt, .rxb 0x42#8] ∧
    (∃ t, runEvents (.btna :: [.btnb, .muxt, .rxb 0x42#8] ++ [.dbt]) State.reset = .next t) ∧
    ∃ t, runEvents (.btnb :: [.btnb, .muxt, .rxb 0x42#8] ++ [.dbt]) State.reset = .next t :=
  ⟨by decide, by decide, by decide, by decide, by decide, runEvents_interrupts (by decide) _,
    runEvents_interrupts (by decide) _⟩

/-- An edge that arms the timer, and an expiry of a running timer. -/
theorem witness_FaithfulTimerRunsWhileDebouncing :
    ((false = true ↔ State.reset.debState = .debouncing) ∧ Instr.btna ≠ .rst ∧ (Instr.btna = .dbt → false = true) ∧
      ∃ t, exec .btna State.reset = .next t) ∧
    ((true = true ↔ debouncingB.debState = .debouncing) ∧ Instr.dbt ≠ .rst ∧ (Instr.dbt = .dbt → true = true) ∧
      ∃ t, exec .dbt debouncingB = .next t) :=
  ⟨⟨by decide, by decide, by decide, _, rfl⟩, by decide, by decide, by decide, _, rfl⟩

theorem witness_MultiplexTickRendersTheNextPosition : digits47.muxIdx = 0#1 ∧ busy.muxIdx = 1#1 := by decide

/-- A tick; and a reset of a lit position, where the digit changes too. -/
theorem witness_OutputsBreakBeforeMake : (busy.digitEn ≠ 0b11#2 ∧ ∃ t, exec .muxt busy = .next t) ∧
    ({ busy with segBcd := 7#4 }.digitEn ≠ 0b11#2 ∧ ∃ t, exec .rst { busy with segBcd := 7#4 } = .next t) :=
  ⟨⟨by decide, _, rfl⟩, by decide, _, rfl⟩

theorem witness_TicksAlternatePositions : ∃ t u v, exec .muxt digits47 = .next t ∧ .muxt ∉ [Instr.btna, .fgf] ∧
    .rst ∉ [Instr.btna, .fgf] ∧ runEvents [.btna, .fgf] t = .next u ∧ exec .muxt u = .next v :=
  ⟨_, _, _, rfl, by decide, by decide, rfl, rfl⟩

theorem witness_OnlyTheTickTouchesTheMultiplexer : Instr.fgs ≠ .muxt ∧ Instr.fgs ≠ .rst ∧
    ∃ t, exec .fgs averages6040 = .next t := ⟨by decide, by decide, _, rfl⟩

/-- With an event pending and without; and at phase 0. -/
theorem witness_FgsAppliesTheSelectionAndRefreshes : averages6040.fgPhase = 1#1 ∧
    (Chan.A = if averages6040.selPending = true then averages6040.selEvent else averages6040.selection) ∧
    (60 = (averages6040.avg.get (if Chan.A = Chan.A then Config.selACh else Config.selBCh)).toNat) ∧
    (Chan.B = if { averages6040 with selPending := true, selEvent := .B }.selPending = true then
      { averages6040 with selPending := true, selEvent := .B }.selEvent else Chan.A) ∧
    (40 = ({ averages6040 with selPending := true, selEvent := .B }.avg.get
      (if Chan.B = Chan.A then Config.selACh else Config.selBCh)).toNat) ∧
    State.reset.fgPhase = 0#1 := by decide

/-- The example of 45_foreground.md R236: the new average of the new channel is 60. -/
theorem witness_PassShowsTheNewChannelsNewAverage : bothPending.fgPhase = 0#1 ∧ bothPending.frameReady = true ∧
    bothPending.selPending = true ∧ MeasChannel.ch3 = selectedChannel bothPending.selEvent ∧
    (#v[80#16, 160#16, 0#16, 0#16] : Ring) =
      (bothPending.hist.get .ch3).set (bothPending.histPos.get .ch3).toNat (bothPending.frameRd.get .ch3)
        (bothPending.histPos.get .ch3).isLt ∧
    60 = ((80#16).toNat + (160#16).toNat + (0#16).toNat + (0#16).toNat) / 4 := by decide

theorem witness_FlagsAreSetAndClearedAsStated : (∃ t, exec (.rxb 0x01#8) almostF50 = .next t) ∧
    (∃ t, exec .fgf bothPending = .next t) ∧ ∃ t, exec .dbt debouncingB = .next t := ⟨⟨_, rfl⟩, ⟨_, rfl⟩, _, rfl⟩

/-- Each agent's clause has an event that meets its condition and one that does not. -/
theorem witness_AgentsWriteOnlyWhatTheyOwn : (∃ t, exec .muxt State.reset = .next t ∧ Instr.muxt ≠ .rst) ∧
    (∃ t, exec (.rxb 0x42#8) State.reset = .next t ∧ Instr.rxb 0x42#8 ≠ .rst) ∧
    Instr.muxt.agent ≠ .serial ∧ Instr.muxt ≠ .fgf ∧ Instr.muxt.agent ≠ .buttonEdge ∧ Instr.muxt.agent ≠ .debounceTimer ∧
    Instr.muxt ≠ .fgs ∧ (Instr.rxb 0x42#8).agent ≠ .multiplexTimer ∧ Instr.muxt.agent ≠ .foreground :=
  ⟨⟨_, rfl, by decide⟩, ⟨_, rfl, by decide⟩, by decide⟩

theorem witness_OnlyTheSerialInterruptTouchesTheReceiver : Instr.fgf.agent ≠ .serial ∧ Instr.fgf ≠ .rst ∧
    ∃ t, exec .fgf bothPending = .next t := ⟨by decide, by decide, _, rfl⟩

/-- A byte that completes no frame, and the `FGF` after it. -/
theorem witness_IndependentStepsCommute : (Instr.rxb 0x42#8).agent ≠ Instr.fgf.agent ∧ Instr.rxb 0x42#8 ≠ .rst ∧
    Instr.fgf ≠ .rst ∧ ¬orderMatters (.rxb 0x42#8) .fgf bothPending ∧
    ∃ u v, exec (.rxb 0x42#8) bothPending = .next u ∧ exec .fgf u = .next v := by
  refine ⟨by decide, by decide, by decide, fun h => ?_, ?_⟩
  · exact absurd h.1 (by decide)
  · obtain ⟨u, hu, hp⟩ := next_of_after (view := (·.fgPhase)) (a := 0#1)
      (show after (·.fgPhase) (.rxb 0x42#8) bothPending = some _ by decide)
    exact ⟨u, _, hu, if_pos hp⟩

theorem witness_DontCareFieldsAreUnobservable :
    sameButDontCares State.reset { State.reset with frameRd := ⟨1#16, 2#16, 3#16⟩, selEvent := .B, debCand := .B } ∧
    ∃ t, runEvents [.fgf, .btna, .fgs] State.reset = .next t :=
  ⟨⟨rfl, by decide, by decide, by decide⟩, _, rfl⟩

theorem witness_StepRunsIndefinitely : State.reset.schedule = [] := rfl

theorem witness_RunsOfStepAreInterleavings : ∃ st : Nat → State, ∀ n, step (st n) = .next (st (n + 1)) := by
  obtain ⟨st, -, h⟩ := exists_sequence (R := fun _ s t => step s = .next t) (P := fun _ s => s.schedule = [])
    (fun _ _ h => step_unscheduled_next h) (rfl : State.reset.schedule = [])
  exact ⟨st, h⟩

/-- An endless sequence that meets the condition, unfairly, and one that does not. -/
theorem witness_EveryInfiniteInterleavingIsARun :
    (∀ n, alternates State.reset.fgPhase ((List.range n).map (fun _ => Instr.muxt))) ∧
    ¬∀ n, alternates State.reset.fgPhase ((List.range n).map (fun _ => Instr.fgs)) := by
  constructor
  · intro n
    rw [List.map_const']
    generalize (List.range n).length = m
    induction m with
    | zero => trivial
    | succ m ih => exact ih
  · intro h
    have h1 := h 1
    simp [alternates] at h1

theorem witness_InterruptsCanDelayTheForegroundForEver :
    ∀ n, ((fun _ => Instr.muxt : Nat → Instr) n).agent ≠ .foreground ∧ (fun _ => Instr.muxt : Nat → Instr) n ≠ .rst :=
  fun _ => (by decide : Instr.muxt.agent ≠ .foreground ∧ Instr.muxt ≠ .rst)

/-- `FGF`, `FGS`, `MUXT`, again and again. -/
def cycle (n : Nat) : Instr := if n % 3 = 0 then .fgf else if n % 3 = 1 then .fgs else .muxt

theorem cycle_fair : Fair cycle :=
  ⟨fun n => ⟨3 * n, by omega, by simp [cycle, Instr.agent]⟩,
    fun n => ⟨3 * n + 2, by omega, by simp [cycle]⟩⟩

theorem cycle_has_no_reset (n : Nat) : cycle n ≠ .rst := by
  unfold cycle
  split_ifs <;> decide

/-- The cycle runs from the state with a frame and a press pending. -/
theorem cycle_runs : ∃ st : Nat → State, st 0 = bothPending ∧ InfiniteRun cycle st := by
  refine exists_sequence (R := fun n => takes (cycle n))
    (P := fun n s => s.fgPhase = if n % 3 = 1 then 1#1 else 0#1) (fun n s h => ?_) rfl
  have h3 : n % 3 = 0 ∨ n % 3 = 1 ∨ n % 3 = 2 := by omega
  have key : ∃ t, exec (cycle n) s = .next t := by
    rcases h3 with e | e | e <;> simp only [e, cycle] at h ⊢ <;> first | exact ⟨_, if_pos h⟩ | exact ⟨_, rfl⟩
  obtain ⟨t, ht⟩ := key
  refine ⟨t, takes_of_exec ht, ?_⟩
  have hp := takes_phase (takes_of_exec ht)
  rcases h3 with e | e | e
  · rw [show (n + 1) % 3 = 1 by omega]
    exact (hp.2.1 (by simp [cycle, e])).2
  · rw [show (n + 1) % 3 = 2 by omega]
    exact (hp.2.2.1 (by simp [cycle, e])).2
  · rw [show (n + 1) % 3 = 0 by omega]
    rw [e] at h
    exact (hp.2.2.2 (cycle_has_no_reset n) (by simp [cycle, e, Instr.agent])).trans h

theorem witness_FairForegroundAveragesAReadyFrame : ∃ st, InfiniteRun cycle st ∧ ForegroundFair cycle ∧
    (∀ m, 0 ≤ m → cycle m ≠ .rst) ∧ (st 0).frameReady = true := by
  obtain ⟨st, h0, h⟩ := cycle_runs
  exact ⟨st, h, cycle_fair.1, fun m _ => cycle_has_no_reset m, by rw [h0]; rfl⟩

theorem witness_FairForegroundAppliesAPendingPress : ∃ st, InfiniteRun cycle st ∧ ForegroundFair cycle ∧
    (∀ m, 0 ≤ m → cycle m ≠ .rst) ∧ (st 0).selPending = true := by
  obtain ⟨st, h0, h⟩ := cycle_runs
  exact ⟨st, h, cycle_fair.1, fun m _ => cycle_has_no_reset m, by rw [h0]; rfl⟩

theorem witness_FairTicksRenderBothDigits : ∃ st, InfiniteRun cycle st ∧ TickFair cycle ∧
    ∀ m, 0 ≤ m → cycle m ≠ .rst := by
  obtain ⟨st, -, h⟩ := cycle_runs
  exact ⟨st, h, cycle_fair.2, fun m _ => cycle_has_no_reset m⟩

end Sys2Proof.Tests
end

/-!
PROOF. When the two status flags change (10_state.md R44): what an `RXB` does to `frame_ready`, what every other event
does to it, and what each event does to `sel_pending`, read off the list of transitions.
-/

namespace Sys2Proof.Proofs

open Sys2Proof Sys2Proof.Machine Sys2Proof.Safety

variable {i : Instr} {b : Byte} {s t : State}

/-- A desynchronising byte validates no frame: at the last index the start byte is the buffer's own. -/
theorem not_validates_of_bad_start (start : (if s.rxPos = 0#5 then b else s.fb 0) ≠ 0x42#8) : ¬validates b s := by
  rintro ⟨hpos, hmarker, -, -⟩
  rw [hpos, if_neg (by decide)] at start
  exact start hmarker

/-- A byte that leaves the frame open validates none: at the last index it is the zero sentinel. -/
theorem not_validates_of_open (open31 : s.rxPos = 31#5 → b = 0x00#8) : ¬validates b s := by
  rintro ⟨hpos, -, hsentinel, -⟩
  exact hsentinel (open31 hpos)

/-- An `RXB` sets `frame_ready` by validating a frame and never clears it (40_frame_receiver.md R125, R128). -/
theorem frameReady_after_rxb (h : Transition (.rxb b) s t) :
    t.frameReady = true ↔ validates b s ∨ s.frameReady = true := by
  cases h with
  | desync _ _ start => simp [not_validates_of_bad_start start]
  | store _ _ _ open31 => simp [not_validates_of_open open31]
  | publish _ _ valid => simp [valid]
  | reject _ _ _ _ _ mismatch => simp [mismatch]

/-- Every other event leaves `frame_ready` or, for `FGF` and `RST`, clears it. -/
theorem frameReady_after_other (hi : ∀ b, i ≠ .rxb b) (h : Transition i s t) :
    t.frameReady = true ↔ s.frameReady = true ∧ i ≠ .fgf ∧ i ≠ .rst := by
  cases h with
  | desync b | store b | publish b | reject b => exact absurd rfl (hi b)
  | noFrame _ _ empty => simp [empty]
  | refresh => simp [refreshed]
  | _ => simp

/-- `sel_pending` is set by a completed debounce, cleared by `FGS` and `RST`, and kept by everything else. -/
theorem selPending_after (h : Transition i s t) :
    t.selPending = true ↔
      (i = .dbt ∧ s.debState = .debouncing) ∨ (s.selPending = true ∧ i ≠ .fgs ∧ i ≠ .rst) := by
  cases h with
  | expiry _ busy => simp [busy]
  | expiryIdle _ idle => simp [idle]
  | refresh => simp [refreshed]
  | _ => simp

/-- Settles O46: the flag `frame_ready` by whether the event is an `RXB`, the flag `sel_pending` for all events at
once. -/
theorem flagsAreSetAndClearedAsStated : Obligations.FlagsAreSetAndClearedAsStated := by
  refine ⟨fun i s t h => ⟨?_, selPending_after (transition_of_exec h)⟩, rfl, rfl⟩
  have ht := transition_of_exec h
  cases i with
  | rxb b => simpa using frameReady_after_rxb ht
  | _ => simpa using frameReady_after_other (by simp) ht

end Sys2Proof.Proofs

/-!
PROOF. The receiver's buffer and cursor are the serial interrupt's alone (10_state.md R24): every transition of another
handler or of the foreground is a transition for any other buffer and cursor too.
-/

namespace Sys2Proof.Proofs

open Sys2Proof Sys2Proof.Machine Sys2Proof.Safety

/-- The state with another buffer and cursor of the receiver, as `Obligations.OnlyTheSerialInterruptTouchesTheReceiver`
puts them. -/
abbrev withReceiver (m : Memory) (p : BitVec 5) (s : State) : State := { s with rxBuf := m, rxPos := p }

/-- No guard of a transition outside the receiver reads the buffer or the cursor, and none of its writes depends on them
or reaches them. -/
theorem transition_withReceiver {i : Instr} {s t : State} (m : Memory) (p : BitVec 5) (hserial : i.agent ≠ .serial)
    (hrst : i ≠ .rst) (h : Transition i s t) : Transition i (withReceiver m p s) (withReceiver m p t) := by
  cases h with
  | reset => exact absurd rfl hrst
  | desync | store | publish | reject => exact absurd rfl hserial
  | edgeA _ idle => exact .edgeA (withReceiver m p s) idle
  | edgeB _ idle => exact .edgeB (withReceiver m p s) idle
  | ignoredA _ busy => exact .ignoredA (withReceiver m p s) busy
  | ignoredB _ busy => exact .ignoredB (withReceiver m p s) busy
  | expiry _ busy => exact .expiry (withReceiver m p s) busy
  | expiryIdle _ idle => exact .expiryIdle (withReceiver m p s) idle
  | tickUnits _ index => exact .tickUnits (withReceiver m p s) index
  | tickTens _ index => exact .tickTens (withReceiver m p s) index
  | record _ phase ready => exact .record (withReceiver m p s) phase ready
  | noFrame _ phase empty => exact .noFrame (withReceiver m p s) phase empty
  | refresh _ phase sel a hsel ha => exact .refresh (withReceiver m p s) phase sel a hsel ha

/-- Settles O48: each transition is moved to the state with the other buffer and cursor. -/
theorem onlyTheSerialInterruptTouchesTheReceiver : Obligations.OnlyTheSerialInterruptTouchesTheReceiver :=
  fun _ _ _ m p hserial hrst h =>
    exec_of_transition (transition_withReceiver m p hserial hrst (transition_of_exec h))

end Sys2Proof.Proofs

/-!
PROOF. Which events are enabled (30_encoding.md R103): the six events of the other agents in every state, the two
foreground events each at its own phase, and refused at the other.
-/

namespace Sys2Proof.Proofs

open Sys2Proof Sys2Proof.Machine Sys2Proof.Safety

variable {i : Instr} {s : State}

/-- The foreground agent has no other events than its two halves of a pass (45_foreground.md R226). -/
theorem eq_fgf_or_fgs_of_foreground (h : i.agent = .foreground) : i = .fgf ∨ i = .fgs := by
  cases i with
  | fgf => exact .inl rfl
  | fgs => exact .inr rfl
  | _ => cases h

theorem foregroundTurn_phase_zero (hp : s.fgPhase = 0#1) : foregroundTurn s = .fgf := if_pos hp

theorem foregroundTurn_phase_one (hp : s.fgPhase = 1#1) : foregroundTurn s = .fgs := if_neg (by simp [hp])

theorem fgf_refused_phase_one (hp : s.fgPhase = 1#1) : exec .fgf s = .refused .fgfNotEnabled := if_neg (by simp [hp])

theorem fgs_refused_phase_zero (hp : s.fgPhase = 0#1) : exec .fgs s = .refused .fgsNotEnabled := if_neg (by simp [hp])

/-- Settles O9: an event that is not the foreground's always runs, the foreground's own turn always runs, and the other
half of its pass meets the refusal of its phase test. -/
theorem enabledEventsHaveANextState : Obligations.EnabledEventsHaveANextState := by
  refine ⟨fun i s hfgf hfgs => ?_, fun s hp => ⟨?_, fgs_refused_phase_zero hp⟩,
    fun s hp => ⟨?_, fgf_refused_phase_one hp⟩, fun s idle => ?_⟩
  · exact exec_arrival (fun hfg => (eq_fgf_or_fgs_of_foreground hfg).elim hfgf hfgs) s
  · exact foregroundTurn_phase_zero hp ▸ exec_foregroundTurn s s rfl
  · exact foregroundTurn_phase_one hp ▸ exec_foregroundTurn s s rfl
  · exact ⟨_, exec_of_transition (.expiryIdle s idle), rfl⟩

end Sys2Proof.Proofs

/-!
PROOF. The operand form `FIELD16` (30_encoding.md R104): its value, and the bytes of the frame buffer it is applied to.
-/

namespace Sys2Proof.Proofs

open Sys2Proof Sys2Proof.Machine

/-- The byte pairs of the three readings (30_encoding.md R91). -/
theorem frameReadings_eq (s : State) : frameReadings s =
    ⟨field16 (s.fb 10) (s.fb 11), field16 (s.fb 12) (s.fb 13), field16 (s.fb 14) (s.fb 15)⟩ := rfl

/-- The byte pair of the checksum value (40_frame_receiver.md R124). -/
theorem ckval_eq (s : State) : ckval s = field16 (s.fb 29) (s.fb 30) := rfl

/-- Settles O17: the value is that of the concatenation; the example is a closed computation. -/
theorem field16IsBigEndian : Obligations.Field16IsBigEndian := by
  refine ⟨fun hi lo => ?_, fun s => ⟨frameReadings_eq s, ckval_eq s⟩, by decide, by decide⟩
  rw [toNat_field16, Nat.mul_comm]

end Sys2Proof.Proofs

/-!
PROOF. A completed frame (40_frame_receiver.md R125): it is published or rejected by the checksum alone, and both
transitions leave the same closed buffer.
-/

namespace Sys2Proof.Proofs

open Sys2Proof Sys2Proof.Machine Sys2Proof.Safety

/-- The bytes of a closed buffer by case: 0 and 31 are cleared, every other is as before the frame's last byte. -/
theorem closedBuffer_bytes (b : Byte) (s : State) :
    Memory.read (closedBuffer b s) 0 = 0x00#8 ∧ Memory.read (closedBuffer b s) 31 = 0x00#8 ∧
      ∀ a, a ≠ 0 → a ≠ 31 → Memory.read (closedBuffer b s) a = s.fb a :=
  ⟨read_closedBuffer b s 0, read_closedBuffer b s 31, fun a h0 h31 => by
    rw [read_closedBuffer, if_neg (not_or.2 ⟨h0, h31⟩)]⟩

/-- The readings of a frame as numbers: each is a big-endian byte pair (30_encoding.md R91, R104). -/
theorem toNat_frameReadings (s : State) :
    (frameReadings s).c1.toNat = 256 * (s.fb 10).toNat + (s.fb 11).toNat ∧
      (frameReadings s).c2.toNat = 256 * (s.fb 12).toNat + (s.fb 13).toNat ∧
      (frameReadings s).c3.toNat = 256 * (s.fb 14).toNat + (s.fb 15).toNat := by
  obtain ⟨value, -⟩ := field16IsBigEndian
  rw [frameReadings_eq]
  exact ⟨value _ _, value _ _, value _ _⟩

/-- Settles O16: a matching checksum makes the step the `publish` transition, a mismatch the `reject` transition. -/
theorem rxbCompletesAFrame : Obligations.RxbCompletesAFrame := by
  intro b s full start sentinel
  obtain ⟨h0, h31, hother⟩ := closedBuffer_bytes b s
  by_cases sum : ((List.range 30).map (fun i => (s.fb i).toNat)).sum = 256 * (s.fb 29).toNat + (s.fb 30).toNat
  · have valid : validates b s := ⟨full, start, sentinel, sum⟩
    refine ⟨_, exec_of_transition (.publish b s valid), rfl, h0, h31, hother, ?_⟩
    rw [if_pos sum]
    exact ⟨rfl, toNat_frameReadings s⟩
  · have mismatch : ¬validates b s := fun ⟨_, _, _, h⟩ => sum h
    refine ⟨_, exec_of_transition (.reject b s full start sentinel mismatch), rfl, h0, h31, hother, ?_⟩
    rw [if_neg sum]
    exact ⟨rfl, rfl⟩

end Sys2Proof.Proofs

/-!
PROOF. The Rolling Average Store (41_rolling_average.md): the average is that of the whole new ring (R152), and four
equal readings fill a ring wherever its cursor stood (R151, R158).
-/

namespace Sys2Proof.Proofs

open Sys2Proof Sys2Proof.Machine

variable {c : MeasChannel} {v : Reading}

/-- `AVG` of a ring whose entries are all `v`: the sum of four does not wrap (41_rolling_average.md R153). -/
theorem ringAverage_of_constant {ring : Ring} (h : ∀ j, ringRead ring j = v) : ringAverage ring = v := by
  apply BitVec.eq_of_toNat_eq
  rw [toNat_ringAverage]
  simp only [h]
  omega

/-- The distance from the cursor to an entry that is not at it shrinks by one when the cursor advances. -/
theorem toNat_sub_advanced_cursor {j p : BitVec 2} (h : j ≠ p) : (j - (p + 1#2)).toNat + 1 = (j - p).toNat := by
  bv_omega

/-- Recordings of `v` keep an entry that is `v`, and make one of every entry fewer places ahead of the cursor than there
are recordings. -/
theorem ringRead_after_constant_readings {rs : List (PerChannel Reading)} {s : State} {j : BitVec 2}
    (constant : ∀ r ∈ rs, r.get c = v)
    (reached : ringRead (s.hist.get c) j = v ∨ (j - s.histPos.get c).toNat < rs.length) :
    ringRead ((rs.foldl (fun u r => recordFrame r u) s).hist.get c) j = v := by
  induction rs generalizing s with
  | nil => simpa using reached
  | cons r rs ih =>
    obtain ⟨hr, hrs⟩ := List.forall_mem_cons.1 constant
    obtain ⟨hist, cursor, -⟩ := recordFrame_channel r s c
    refine ih hrs ?_
    rw [hist, cursor, ringRead_ringWrite, hr]
    by_cases atCursor : j = s.histPos.get c
    · exact .inl (if_pos atCursor)
    · rw [if_neg atCursor]
      have shrinks := toNat_sub_advanced_cursor atCursor
      exact reached.imp_right fun near => by simp only [List.length_cons] at near; omega

/-- `REC` leaves each channel the average of its new ring (41_rolling_average.md R150, R152). -/
theorem avg_recordFrame (r : PerChannel Reading) (s : State) (c : MeasChannel) :
    (recordFrame r s).avg.get c = ringAverage ((recordFrame r s).hist.get c) := by
  obtain ⟨-, -, average⟩ := recordFrame_channel r s c
  exact average

/-- After one recording or more a channel's average is that of its ring: the last recording recomputed it. -/
theorem avg_after_recordings {rs : List (PerChannel Reading)} (h : rs ≠ []) (s : State) (c : MeasChannel) :
    (rs.foldl (fun u r => recordFrame r u) s).avg.get c =
      ringAverage ((rs.foldl (fun u r => recordFrame r u) s).hist.get c) := by
  obtain ⟨before, last, rfl⟩ := (List.eq_nil_or_concat' rs).resolve_left h
  rw [List.foldl_append]
  exact avg_recordFrame last _ c

/-- Settles O28: no entry is four or more places ahead of the cursor, so every entry is `v`. -/
theorem constantInputAveragesToItself : Obligations.ConstantInputAveragesToItself := by
  intro rs s c v four constant
  have nonempty : rs ≠ [] := List.ne_nil_of_length_pos (by omega)
  rw [avg_after_recordings nonempty]
  exact ringAverage_of_constant fun j => ringRead_after_constant_readings constant (.inr (by omega))

/-- Settles O25: the sum and the recomputation are the laws of `AVG` and `REC`; the corner cases of R152 are closed
computations. -/
theorem averageIsTheFloorOfTheMean : Obligations.AverageIsTheFloorOfTheMean :=
  ⟨toNat_ringAverage, avg_recordFrame, by decide, by decide⟩

end Sys2Proof.Proofs

/-!
PROOF. The threshold decision (42_threshold_indicator.md R170): one law on each side of the boundary at 50, where 50
itself is on the safe side.
-/

namespace Sys2Proof.Proofs

open Sys2Proof Sys2Proof.Machine

variable {a : Reading}

/-- `THR` above the boundary (42_threshold_indicator.md R170). -/
theorem threshold_of_above (h : 50 < a.toNat) : threshold a = .isUnsafe := if_pos h

/-- `THR` up to and including the boundary (42_threshold_indicator.md R170). -/
theorem threshold_of_not_above (h : a.toNat ≤ 50) : threshold a = .isSafe := if_neg (Nat.not_lt.2 h)

/-- Settles O29: the two sides of the boundary; each corner case lies on its side by comparison with 50. -/
theorem thresholdIsAboveFifty : Obligations.ThresholdIsAboveFifty := by
  refine ⟨fun a => ?_, threshold_of_not_above (by decide), threshold_of_not_above (by decide),
    threshold_of_above (by decide), threshold_of_above (by decide), threshold_of_above (by decide),
    threshold_of_above (by decide)⟩
  by_cases above : 50 < a.toNat
  · rw [if_pos above, threshold_of_above above]
  · rw [if_neg above, threshold_of_not_above (Nat.le_of_not_lt above)]

end Sys2Proof.Proofs

/-!
PROOF. The debounce machine (43_channel_selector.md): each row of its table is a transition of the core, and the whole
next state, with its output list, is that transition's target.
-/

namespace Sys2Proof.Proofs

open Sys2Proof Sys2Proof.Machine

/-- Settles O32: an edge in `Idle` is the `edgeA` or `edgeB` transition, in `Debouncing` the `ignoredA` or `ignoredB`. -/
theorem buttonEdgeStartsADebounce : Obligations.ButtonEdgeStartsADebounce := by
  refine ⟨fun s idle => ⟨?lineA, ?lineB⟩, fun s busy => ⟨?ignoredA, ?ignoredB⟩⟩
  case lineA => exact exec_of_transition (.edgeA s idle)
  case lineB => exact exec_of_transition (.edgeB s idle)
  case ignoredA => exact exec_of_transition (.ignoredA s busy)
  case ignoredB => exact exec_of_transition (.ignoredB s busy)

/-- Settles O35: an expiry in `Idle` is the `expiryIdle` transition. -/
theorem debounceExpiryWhileIdleIsANoOp : Obligations.DebounceExpiryWhileIdleIsANoOp :=
  fun s idle => exec_of_transition (.expiryIdle s idle)

end Sys2Proof.Proofs

/-!
PROOF. The Display Encoder and Multiplexer (44_display.md): the digits of every display value (R200), and the tick from
each of the two positions (R210).
-/

namespace Sys2Proof.Proofs

open Sys2Proof Sys2Proof.Machine

/-- Settles O38: the digits of every value are the law of `ENC`; the corner cases are closed computations. -/
theorem encodeGivesDecimalDigits : Obligations.EncodeGivesDecimalDigits :=
  ⟨toNat_encodeBcd, by decide, by decide, by decide, by decide, by decide, by decide⟩

/-- Settles O40: from index 1 the tick is the `tickTens` transition, from index 0 the `tickUnits`. -/
theorem multiplexTickRendersTheNextPosition : Obligations.MultiplexTickRendersTheNextPosition := by
  refine fun s => ⟨fun index => ?tens, fun index => ?units⟩
  case tens => exact exec_of_transition (.tickTens s index)
  case units => exact exec_of_transition (.tickUnits s index)

end Sys2Proof.Proofs

/-!
PROOF. The two foreground steps (45_foreground.md): `FGF` is one of two transitions by the frame flag (R228), `FGS` is
one transition whether or not a selection is pending (R230), and each is refused at the other's phase (R226).
-/

namespace Sys2Proof.Proofs

open Sys2Proof Sys2Proof.Machine

/-- One channel's ring, cursor and average after `REC`, entry by entry and as numbers (41_rolling_average.md R150 to
R152). -/
theorem recordFrame_channel_entries (r : PerChannel Reading) (s : State) (c : MeasChannel) :
    (∀ j : BitVec 2, ringRead ((recordFrame r s).hist.get c) j =
        if j = s.histPos.get c then r.get c else ringRead (s.hist.get c) j) ∧
      ((recordFrame r s).histPos.get c).toNat = ((s.histPos.get c).toNat + 1) % 4 ∧
      ((recordFrame r s).avg.get c).toNat =
        (((recordFrame r s).hist.get c)[0].toNat + ((recordFrame r s).hist.get c)[1].toNat +
          ((recordFrame r s).hist.get c)[2].toNat + ((recordFrame r s).hist.get c)[3].toNat) / 4 := by
  obtain ⟨hist, cursor, average⟩ := recordFrame_channel r s c
  refine ⟨fun j => ?entry, ?cursor, ?average⟩
  case entry => rw [hist, ringRead_ringWrite]
  case cursor => rw [cursor, BitVec.toNat_add]; rfl
  case average => rw [average, toNat_ringAverage]; rfl

/-- Settles O26: with a frame ready `FGF` is the `record` transition, which leaves each channel as `REC` does, and
without one the `noFrame` transition. -/
theorem fgfRecordsTheFrame : Obligations.FgfRecordsTheFrame := by
  refine ⟨fun s phase ready => ?recorded, fun s phase empty => ?noFrame, fun s phase => fgf_refused_phase_one phase⟩
  case recorded =>
    exact ⟨_, exec_of_transition (.record s phase ready), rfl, recordFrame_channel_entries s.frameRd s⟩
  case noFrame => exact exec_of_transition (.noFrame s phase empty)

/-- The measurement channel of a selection, by the two parameters (10_state.md R34). -/
theorem selectedChannel_eq (sel : Chan) :
    selectedChannel sel = if sel = .A then Config.selACh else Config.selBCh := by
  cases sel <;> rfl

/-- Settles O44: `FGS` is the `refresh` transition from the selection it leaves and that selection's average. -/
theorem fgsAppliesTheSelectionAndRefreshes : Obligations.FgsAppliesTheSelectionAndRefreshes := by
  refine ⟨fun s sel a phase hsel ha => ?_, fun s phase => fgs_refused_phase_zero phase⟩
  rw [← selectedChannel_eq] at ha
  exact exec_of_transition (.refresh s phase sel a hsel ha)

end Sys2Proof.Proofs

/-!
PROOF. The codec (30_encoding.md R101, R102): a word is its two fields, the decoder splits on the kind, the encoder is
its inverse, and a row of the opcode table spells exactly the words of its kind whose data its format allows.
-/

namespace Sys2Proof.Proofs

open Sys2Proof Sys2Proof.Machine

variable {w v : EventWord} {i : Instr}

/-! The fields of a word. -/

theorem toNat_eventKind (w : EventWord) : (eventKind w).toNat = w.toNat / 256 := by
  have := w.isLt
  simp only [eventKind, BitVec.extractLsb'_toNat, Nat.shiftRight_eq_div_pow]
  omega

theorem toNat_eventData (w : EventWord) : (eventData w).toNat = w.toNat % 256 := by
  simp [eventData, BitVec.extractLsb'_toNat]

theorem eq_iff_fields : w = v ↔ eventKind w = eventKind v ∧ eventData w = eventData v :=
  ⟨fun h => h ▸ ⟨rfl, rfl⟩, fun ⟨hkind, hdata⟩ => by rw [← eventWord_fields w, hkind, hdata, eventWord_fields]⟩

theorem eventKind_and (w v : EventWord) : eventKind (w &&& v) = eventKind w &&& eventKind v :=
  BitVec.extractLsb'_and

theorem eventData_and (w v : EventWord) : eventData (w &&& v) = eventData w &&& eventData v :=
  BitVec.extractLsb'_and

/-! The decoder by its kinds. -/

/-- The kinds 8 to 15 are reserved, whatever the data. -/
theorem decode_reserved (h : 8 ≤ (eventKind w).toNat) : decode w = .error (.reservedKind (eventKind w)) := by
  unfold decode
  split <;> first | rfl | omega

/-- Kind 1 is `RXB`, and the data is its operand. -/
theorem decode_kind_one (h : (eventKind w).toNat = 1) : decode w = .ok (.rxb (eventData w)) := by
  simp [decode, h]

/-- The other kinds have the format without operand. -/
theorem decode_kind_without_operand (h : (eventKind w).toNat < 8) (h1 : (eventKind w).toNat ≠ 1) :
    ∃ i, decode w = decodeEv0 i w := by
  have kinds : (eventKind w).toNat = 0 ∨ (eventKind w).toNat = 2 ∨ (eventKind w).toNat = 3 ∨ (eventKind w).toNat = 4 ∨
      (eventKind w).toNat = 5 ∨ (eventKind w).toNat = 6 ∨ (eventKind w).toNat = 7 := by omega
  rcases kinds with e | e | e | e | e | e | e <;> simp only [decode, e] <;> exact ⟨_, rfl⟩

/-- A word spells an event when its kind is not reserved and its data is zero or an operand (30_encoding.md R102). -/
theorem decode_ok_of_fields (hkind : (eventKind w).toNat < 8) (hdata : (eventKind w).toNat = 1 ∨ eventData w = 0#8) :
    ∃ i, decode w = .ok i := by
  by_cases h1 : (eventKind w).toNat = 1
  · exact ⟨_, decode_kind_one h1⟩
  · obtain ⟨i, hi⟩ := decode_kind_without_operand hkind h1
    exact ⟨i, hi.trans (if_pos (hdata.resolve_left h1))⟩

/-! The encoder is the decoder's inverse. -/

theorem decode_encode (i : Instr) : decode (encode i) = .ok i := by
  cases i with
  | rxb b => simp [encode, decode]
  | _ => rfl

theorem eventWord_eq_of_kind {kind : BitVec 4} {data : Byte} (hkind : (eventKind w).toNat = kind.toNat)
    (hdata : eventData w = data) : eventWord kind data = w := by
  rw [← BitVec.eq_of_toNat_eq hkind, ← hdata, eventWord_fields]

theorem encode_of_decode (h : decode w = .ok i) : encode i = w := by
  unfold decode at h
  split at h
  case h_2 hkind =>
    injection h with h
    exact h ▸ eventWord_eq_of_kind hkind rfl
  case h_9 => cases h
  all_goals
    next hkind =>
      obtain ⟨hdata, rfl⟩ := decodeEv0_ok.1 h
      exact eventWord_eq_of_kind hkind hdata

theorem encode_injective : Function.Injective encode := fun i j h =>
  Except.ok.inj ((decode_encode i).symm.trans (h ▸ decode_encode j))

/-- Settles O1. -/
theorem decodeAndEncodeAgree : Obligations.DecodeAndEncodeAgree :=
  ⟨fun i _ => decode_encode i, fun _ _ h => encode_of_decode h⟩

/-! The reserved words. -/

theorem eventKind_eq_ofNat (w : EventWord) : eventKind w = BitVec.ofNat 4 (w.toNat / 256) := by
  rw [← toNat_eventKind, BitVec.ofNat_toNat, BitVec.setWidth_eq]

theorem eventData_eq_ofNat (w : EventWord) : eventData w = BitVec.ofNat 8 (w.toNat % 256) := by
  rw [← toNat_eventData, BitVec.ofNat_toNat, BitVec.setWidth_eq]

theorem eventData_eq_zero_iff : eventData w = 0#8 ↔ w.toNat % 256 = 0 := by
  rw [← BitVec.toNat_inj, toNat_eventData]; rfl

/-- A step whose word is reserved is refused under the decoder's name. -/
theorem step_refused {s : State} {rest : List EventWord} {e : DecodeError} (hs : s.schedule = w :: rest)
    (hw : decode w = .error e) : step s = .refused (refusalOf e) := by
  simp [step, fetch, hs, hw]

/-- Settles O2: by the kind, and where that is not reserved by whether the format has an operand. -/
theorem reservedWordsAreRefused : Obligations.ReservedWordsAreRefused := by
  intro w
  have hkind := toNat_eventKind w
  refine ⟨fun reserved => ?_, fun legal notRxb nonzero => ?_, fun legal operand => ?_, fun e s rest hw hs => ?_⟩
  · rw [decode_reserved (by omega), eventKind_eq_ofNat]
  · obtain ⟨i, hi⟩ := decode_kind_without_operand (w := w) (by omega) (by omega)
    rw [hi, decodeEv0, if_neg (mt eventData_eq_zero_iff.1 nonzero), ← eventKind_eq_ofNat, ← eventData_eq_ofNat]
  · exact decode_ok_of_fields (by omega) (by rwa [hkind, eventData_eq_zero_iff])
  · exact step_refused hs hw

/-! The opcode table. -/

/-- A row spells the words of its kind, with zero data if its format has no operand (30_encoding.md R101). -/
theorem spells_iff {r : OpcodeRow} (hr : r ∈ opcodeTable) :
    r.spells w = true ↔ eventKind w = eventKind r.matchBits ∧ (r.format = .ev0 → eventData w = 0#8) := by
  have masks : ∀ q ∈ opcodeTable, eventKind q.mask = 0xF#4 ∧ eventData q.matchBits = 0#8 ∧
      eventData q.mask = if q.format = .ev0 then 0xFF#8 else 0#8 := by decide
  obtain ⟨hkind, hmatch, hdata⟩ := masks r hr
  have ones4 : ∀ k : BitVec 4, k &&& 0xF#4 = k := fun k => BitVec.and_allOnes (x := k)
  have ones8 : ∀ d : Byte, d &&& 0xFF#8 = d := fun d => BitVec.and_allOnes (x := d)
  rw [OpcodeRow.spells, beq_iff_eq, eq_iff_fields, eventKind_and, eventData_and, hkind, hmatch, hdata, ones4]
  by_cases hf : r.format = .ev0
  · simp [hf, ones8]
  · simp [hf]

/-- No two rows have the same kind. -/
theorem row_determined_by_kind : ∀ q ∈ opcodeTable, ∀ r ∈ opcodeTable,
    eventKind q.matchBits = eventKind r.matchBits → q = r := by decide

/-- Every row's kind is below 8, and only kind 1 has an operand. -/
theorem row_kind : ∀ r ∈ opcodeTable,
    (eventKind r.matchBits).toNat < 8 ∧ ((eventKind r.matchBits).toNat = 1 ∨ r.format = .ev0) := by decide

theorem encode_spelled_by_its_row (i : Instr) :
    ∃ r ∈ opcodeTable, r.mnemonic = i.mnemonic ∧ r.spells (encode i) = true := by
  cases i with
  | rst => exact Laws.EncodesInItsRow.rst
  | rxb b => exact Laws.EncodesInItsRow.rxb b
  | btna => exact Laws.EncodesInItsRow.btna
  | btnb => exact Laws.EncodesInItsRow.btnb
  | dbt => exact Laws.EncodesInItsRow.dbt
  | muxt => exact Laws.EncodesInItsRow.muxt
  | fgf => exact Laws.EncodesInItsRow.fgf
  | fgs => exact Laws.EncodesInItsRow.fgs

theorem decode_ok_of_spelled {r : OpcodeRow} (hr : r ∈ opcodeTable) (hw : r.spells w = true) :
    ∃ i, decode w = .ok i := by
  obtain ⟨hkind, hdata⟩ := (spells_iff hr).1 hw
  obtain ⟨hlt, hformat⟩ := row_kind r hr
  exact decode_ok_of_fields (hkind ▸ hlt) (hkind ▸ hformat.imp_right hdata)

/-- Settles O3: a decoded word is an encoding, which its event's row spells, and rows differ in their kinds. -/
theorem decoderMatchesTheOpcodeTable : Obligations.DecoderMatchesTheOpcodeTable := by
  refine ⟨fun w => ⟨fun ⟨i, hi⟩ => ?_, fun legal => ?_⟩, fun w i hi => ?_⟩
  · obtain ⟨r, hr, -, hw⟩ := encode_spelled_by_its_row i
    exact List.any_eq_true.2 ⟨r, hr, encode_of_decode hi ▸ hw⟩
  · obtain ⟨r, hr, hw⟩ := List.any_eq_true.1 legal
    exact decode_ok_of_spelled hr hw
  · obtain ⟨r, hr, hname, hw⟩ := encode_spelled_by_its_row i
    rw [encode_of_decode hi] at hw
    refine ⟨r, hr, hname, hw, fun q hq hqw => row_determined_by_kind q hq r hr ?_⟩
    exact ((spells_iff hq).1 hqw).1.symm.trans ((spells_iff hr).1 hw).1

/-! The number of events. -/

/-- Every event once: the seven without operand, and `RXB` with each of 256 bytes. -/
def allEvents : List Instr :=
  [.rst, .btna, .btnb, .dbt, .muxt, .fgf, .fgs] ++ (List.finRange 256).map (fun n => .rxb (BitVec.ofFin n))

theorem mem_allEvents (i : Instr) : i ∈ allEvents := by
  cases i with
  | rxb b => exact List.mem_append_right _ (List.mem_map.2 ⟨b.toFin, List.mem_finRange _, rfl⟩)
  | _ => simp [allEvents]

theorem nodup_allEvents : allEvents.Nodup := by
  have rxbs : ((List.finRange 256).map (fun n => Instr.rxb (BitVec.ofFin n))).Nodup :=
    (List.nodup_finRange 256).map fun m n h => by injection h with h; exact congrArg BitVec.toFin h
  refine List.nodup_append'.2 ⟨by decide, rxbs, fun i hi hrxb => ?_⟩
  obtain ⟨n, -, rfl⟩ := List.mem_map.1 hrxb
  simp at hi

/-- The 12-bit numbers that are decoded are the encodings of the events. -/
theorem decodeTableWord_isSome_iff {n : Nat} (hn : n < 4096) :
    (decodeTableWord 16 n).isSome = true ↔ ∃ i, (encode i).toNat = n := by
  have bits : tableBits 16 n = n := Nat.mod_eq_of_lt (by omega)
  have word : (BitVec.ofNat 12 n).toNat = n := Nat.mod_eq_of_lt hn
  rw [decodeTableWord, bits, if_pos (show n < 2 ^ 12 from hn)]
  constructor
  · intro h
    cases hi : decode (BitVec.ofNat 12 n) with
    | ok i => exact ⟨i, by rw [encode_of_decode hi, word]⟩
    | error e => simp [hi, Except.toOption] at h
  · rintro ⟨i, hi⟩
    rw [show BitVec.ofNat 12 n = encode i from BitVec.eq_of_toNat_eq (word.trans hi.symm), decode_encode]
    rfl

/-- Settles O4: the legal numbers are the encodings of the 7 + 256 events, each once. -/
theorem legalWordsAreCounted : Obligations.LegalWordsAreCounted := by
  have encodings : ((List.range 4096).filter (fun n => (decodeTableWord 16 n).isSome)).Perm
      (allEvents.map fun i => (encode i).toNat) := by
    refine (List.perm_ext_iff_of_nodup (List.nodup_range.filter _)
      (nodup_allEvents.map fun i j h => encode_injective (BitVec.eq_of_toNat_eq h))).2 fun n => ?_
    rw [List.mem_filter, List.mem_range, List.mem_map]
    constructor
    · rintro ⟨hn, h⟩
      obtain ⟨i, hi⟩ := (decodeTableWord_isSome_iff hn).1 h
      exact ⟨i, mem_allEvents i, hi⟩
    · rintro ⟨i, -, rfl⟩
      exact ⟨(encode i).isLt, (decodeTableWord_isSome_iff (encode i).isLt).2 ⟨i, rfl⟩⟩
  rw [Obligations.LegalWordsAreCounted, encodings.length_eq, List.length_map, allEvents, List.length_append,
    List.length_map, List.length_finRange]
  rfl

/-- Settles O5: each accepted word is an event's encoding; the last two have a nonzero data field and a reserved kind. -/
theorem wordsOfTheSpecDecode : Obligations.WordsOfTheSpecDecode :=
  ⟨decode_encode .rst, decode_encode (.rxb 0x42#8), decode_encode (.rxb 0xFF#8), decode_encode .btna,
    decode_encode .btnb, decode_encode .dbt, decode_encode .muxt, decode_encode .fgf, decode_encode .fgs,
    rfl, decode_reserved (w := 0x942#12) (by decide)⟩

end Sys2Proof.Proofs

/-!
PROOF. Which event a step runs (00_scope.md section 4): the next scheduled word's, a placed one's, or with nothing
scheduled an arrival's or the foreground's own turn; and that such steps go on for ever.
-/

namespace Sys2Proof.Proofs

open Sys2Proof Sys2Proof.Machine

/-- Settles O6. -/
theorem stepRunsTheScheduledEvent : Obligations.StepRunsTheScheduledEvent := by
  intro s w rest i hs hw
  simp [step, fetch, hs, hw]

/-- Settles O7: the two cases of a step with nothing scheduled. -/
theorem stepRunsAnArrivalOrTheForegroundTurn : Obligations.StepRunsAnArrivalOrTheForegroundTurn :=
  fun s hs => ⟨unscheduledEvent s, step_unscheduled hs, unscheduledEvent_cases s⟩

/-- A number is decoded if it fits an event word that is (assumption log 6). -/
theorem decode_of_decodeTableWord {nbits w : Nat} {i : Instr} (h : decodeTableWord nbits w = some i) :
    decode (BitVec.ofNat 12 (tableBits nbits w)) = .ok i := by
  unfold decodeTableWord at h
  split at h
  · cases hd : decode (BitVec.ofNat 12 (tableBits nbits w)) with
    | ok j => simpa [hd, Except.toOption] using h
    | error e => simp [hd, Except.toOption] at h
  · cases h

/-- Settles O8: the placed word is the head of the schedule, and the rest is the schedule as it was. -/
theorem placedInstructionRunsNext : Obligations.PlacedInstructionRunsNext :=
  fun s nbits w i h =>
    stepRunsTheScheduledEvent (s.withFetchWord nbits w) _ s.schedule i rfl (decode_of_decodeTableWord h)

/-- Settles O51: a step with nothing scheduled leaves nothing scheduled. -/
theorem stepRunsIndefinitely : Obligations.StepRunsIndefinitely := fun _ hs =>
  exists_sequence (R := fun _ u t => step u = .next t) (P := fun _ u => u.schedule = [])
    (fun _ _ hu => step_unscheduled_next hu) hs

/-- Settles O52: some event leads from each state of the run to the next. -/
theorem runsOfStepAreInterleavings : Obligations.RunsOfStepAreInterleavings := by
  intro st run
  choose ev takes using fun n => takes_of_step (run n)
  exact ⟨ev, takes⟩

end Sys2Proof.Proofs

/-!
PROOF. Who writes what (60_exceptions.md section 3): for each group of variables, a transition of another owner leaves
it as it is.
-/

namespace Sys2Proof.Proofs

open Sys2Proof Sys2Proof.Machine Sys2Proof.Safety

section Owners

variable {i : Instr} {s t : State}

theorem sameReceiver_of_transition (h : Transition i s t) (hrst : i ≠ .rst) (hserial : i.agent ≠ .serial) :
    sameReceiver s t := by
  cases h with
  | reset => exact absurd rfl hrst
  | desync | store | publish | reject => exact absurd rfl hserial
  | _ => exact ⟨rfl, rfl⟩

theorem frameRd_of_transition (h : Transition i s t) (hrst : i ≠ .rst) (hserial : i.agent ≠ .serial) :
    t.frameRd = s.frameRd := by
  cases h with
  | reset => exact absurd rfl hrst
  | desync | store | publish | reject => exact absurd rfl hserial
  | _ => rfl

theorem sameMailbox_of_transition (h : Transition i s t) (hrst : i ≠ .rst) (hserial : i.agent ≠ .serial)
    (hfgf : i ≠ .fgf) : sameMailbox s t := by
  cases h with
  | reset => exact absurd rfl hrst
  | desync | store | publish | reject => exact absurd rfl hserial
  | record | noFrame => exact absurd rfl hfgf
  | _ => exact ⟨rfl, rfl⟩

theorem sameStore_of_transition (h : Transition i s t) (hrst : i ≠ .rst) (hfgf : i ≠ .fgf) : sameStore s t := by
  cases h with
  | reset => exact absurd rfl hrst
  | record | noFrame => exact absurd rfl hfgf
  | _ => exact ⟨rfl, rfl, rfl⟩

theorem debCand_of_transition (h : Transition i s t) (hrst : i ≠ .rst) (hbutton : i.agent ≠ .buttonEdge) :
    t.debCand = s.debCand := by
  cases h with
  | reset => exact absurd rfl hrst
  | edgeA | edgeB | ignoredA | ignoredB => exact absurd rfl hbutton
  | _ => rfl

theorem sameDebounce_of_transition (h : Transition i s t) (hrst : i ≠ .rst) (hbutton : i.agent ≠ .buttonEdge)
    (htimer : i.agent ≠ .debounceTimer) : sameDebounce s t := by
  cases h with
  | reset => exact absurd rfl hrst
  | edgeA | edgeB | ignoredA | ignoredB => exact absurd rfl hbutton
  | expiry | expiryIdle => exact absurd rfl htimer
  | _ => exact ⟨rfl, rfl⟩

theorem selEvent_of_transition (h : Transition i s t) (hrst : i ≠ .rst) (htimer : i.agent ≠ .debounceTimer) :
    t.selEvent = s.selEvent := by
  cases h with
  | reset => exact absurd rfl hrst
  | expiry | expiryIdle => exact absurd rfl htimer
  | _ => rfl

theorem sameSelEvent_of_transition (h : Transition i s t) (hrst : i ≠ .rst) (htimer : i.agent ≠ .debounceTimer)
    (hfgs : i ≠ .fgs) : sameSelEvent s t := by
  cases h with
  | reset => exact absurd rfl hrst
  | expiry | expiryIdle => exact absurd rfl htimer
  | refresh => exact absurd rfl hfgs
  | _ => exact ⟨rfl, rfl⟩

theorem sameShown_of_transition (h : Transition i s t) (hrst : i ≠ .rst) (hfgs : i ≠ .fgs) :
    sameSelection s t ∧ sameDigits s t ∧ sameLeds s t := by
  cases h with
  | reset => exact absurd rfl hrst
  | refresh => exact absurd rfl hfgs
  | _ => exact ⟨rfl, ⟨rfl, rfl⟩, rfl, rfl⟩

theorem sameMultiplexer_of_transition (h : Transition i s t) (hrst : i ≠ .rst) (htick : i.agent ≠ .multiplexTimer) :
    sameMultiplexer s t := by
  cases h with
  | reset => exact absurd rfl hrst
  | tickUnits | tickTens => exact absurd rfl htick
  | _ => exact ⟨rfl, rfl, rfl⟩

theorem samePhase_of_transition (h : Transition i s t) (hrst : i ≠ .rst) (hfg : i.agent ≠ .foreground) :
    samePhase s t := by
  cases h with
  | reset => exact absurd rfl hrst
  | record | noFrame | refresh => exact absurd rfl hfg
  | _ => rfl

end Owners

/-- Settles O47: one lemma for each row of the table of owners. -/
theorem agentsWriteOnlyWhatTheyOwn : Obligations.AgentsWriteOnlyWhatTheyOwn := by
  intro i s t h hrst
  have ht := transition_of_exec h
  exact ⟨sameReceiver_of_transition ht hrst,
    fun hserial => ⟨frameRd_of_transition ht hrst hserial, sameMailbox_of_transition ht hrst hserial⟩,
    sameStore_of_transition ht hrst,
    fun hbutton => ⟨debCand_of_transition ht hrst hbutton, sameDebounce_of_transition ht hrst hbutton⟩,
    fun htimer => ⟨selEvent_of_transition ht hrst htimer, sameSelEvent_of_transition ht hrst htimer⟩,
    sameShown_of_transition ht hrst,
    sameMultiplexer_of_transition ht hrst,
    samePhase_of_transition ht hrst,
    exec_keeps_bookkeeping h⟩

end Sys2Proof.Proofs

/-!
PROOF. Reset (70_reset_and_hazards.md section 1): the state it leaves, and that this state meets the invariant.
-/

namespace Sys2Proof.Proofs

open Sys2Proof Sys2Proof.Machine Sys2Proof.Safety

/-- The rings of the reset state are zero-filled (10_state.md R51). -/
theorem reset_channel (c : MeasChannel) :
    State.reset.frameRd.get c = 0#16 ∧ (∀ i : BitVec 2, ringRead (State.reset.hist.get c) i = 0#16) ∧
      State.reset.histPos.get c = 0#2 ∧ State.reset.avg.get c = 0#16 := by
  cases c <;> exact ⟨rfl, by decide, rfl, rfl⟩

/-- Settles O11: the `reset` transition, whose target is the reset state but for what is still to come. -/
theorem resetLeavesTheResetTable : Obligations.ResetLeavesTheResetTable := fun s =>
  ⟨_, exec_of_transition (.reset s), fb_reset, rfl, rfl, reset_channel,
    rfl, rfl, rfl, rfl, rfl, rfl, rfl, rfl, rfl, rfl, rfl, rfl, rfl, rfl, rfl, rfl⟩

/-- Settles O12: the conditions of the invariant on one closed state. -/
theorem resetStateMeetsTheInvariant : Obligations.ResetStateMeetsTheInvariant where
  receiver := ⟨wf_reset, fun h => absurd rfl h, fun _ => .inl rfl, fun _ => rfl⟩
  store := ⟨⟨rfl, rfl⟩, fun c => by cases c <;> rfl⟩
  display := ⟨by decide, by decide, by decide, .inl rfl⟩
  output := ⟨by decide, fun _ => rfl, by decide⟩

end Sys2Proof.Proofs

/-!
PROOF. The invariant of the reachable states (10_state.md): each of its four parts is kept by every transition but
reset, which leads to a state that meets it.
-/

namespace Sys2Proof.Proofs

open Sys2Proof Sys2Proof.Machine Sys2Proof.Safety

variable {i : Instr} {s t : State}

/-! A part of the invariant speaks of its own variables only. -/

theorem receiverInv_congr (hs : ReceiverInv s) (h : sameReceiver s t) : ReceiverInv t := by
  obtain ⟨hbuf, hpos⟩ := h
  have hfb : ∀ a, t.fb a = s.fb a := fun a => by rw [State.fb, State.fb, hbuf]
  refine ⟨hbuf ▸ hs.canonical, ?_, ?_, ?_⟩ <;> rw [hpos, hfb]
  · exact hs.assembling
  · exact hs.between
  · exact hs.sentinelClear

theorem storeInv_congr (hs : StoreInv s) (h : sameStore s t) : StoreInv t := by
  obtain ⟨hhist, hpos, havg⟩ := h
  exact ⟨hpos ▸ hs.cursors, hhist ▸ havg ▸ hs.averages⟩

theorem displayInv_congr (hs : DisplayInv s) (hdigits : sameDigits s t) (hmux : sameMultiplexer s t) : DisplayInv t := by
  obtain ⟨htens, hunits⟩ := hdigits
  obtain ⟨hidx, hen, hseg⟩ := hmux
  exact ⟨htens ▸ hs.tens, hunits ▸ hs.units, hseg ▸ hs.shown, hidx ▸ hen ▸ hs.onePosition⟩

/-- The invariant reads none of the model's own fields. -/
theorem coreInv_of_sameVariables (h : sameVariables s t) (hs : CoreInv s) : CoreInv t := by
  rw [h]
  obtain ⟨hr, ⟨hcursors, havg⟩, ⟨htens, hunits, hshown, hpos⟩, ⟨hexcl, hdigits, hleds⟩⟩ := hs
  exact ⟨receiverInv_congr hr ⟨rfl, rfl⟩, ⟨hcursors, havg⟩, ⟨htens, hunits, hshown, hpos⟩, ⟨hexcl, hdigits, hleds⟩⟩

/-! The receiver (10_state.md R23). -/

theorem receiverInv_stored {b : Byte} (hs : ReceiverInv s) (start : (if s.rxPos = 0#5 then b else s.fb 0) = 0x42#8)
    (open31 : s.rxPos = 31#5 → b = 0x00#8) :
    ReceiverInv { s with rxBuf := Memory.write s.rxBuf s.rxPos.toNat b, rxPos := s.rxPos + 1#5, outputs := [] } := by
  have first : Memory.read (Memory.write s.rxBuf s.rxPos.toNat b) 0 = 0x42#8 := by
    rw [read_write, ← start]
    simp only [eq_comm (a := 0), rxPos_toNat_zero, State.fb]
  refine ⟨wf_write b s.rxPos.isLt hs.canonical, fun _ => first, fun _ => .inr first, fun wrapped => ?_⟩
  have last : s.rxPos = 31#5 := by
    have : s.rxPos + 1#5 = 0#5 := wrapped
    bv_omega
  have zero := open31 last
  subst zero
  show Memory.read (Memory.write s.rxBuf s.rxPos.toNat 0#8) 31 = 0#8
  rw [last]
  exact read_write_same _ _ _

theorem receiverInv_closed {b : Byte} (hs : ReceiverInv s) (hbuf : t.rxBuf = closedBuffer b s) (hpos : t.rxPos = 0#5) :
    ReceiverInv t := by
  obtain ⟨h0, h31, -⟩ := closedBuffer_bytes b s
  rw [← hbuf] at h0 h31
  exact ⟨hbuf ▸ wf_closedBuffer b hs.canonical, fun h => absurd hpos h, fun _ => .inl h0, fun _ => h31⟩

theorem receiverInv_of_transition (h : Transition i s t) (hrst : i ≠ .rst) (hs : ReceiverInv s) : ReceiverInv t := by
  by_cases hserial : i.agent = .serial
  · cases h with
    | desync => exact ⟨wf_nil, fun h => absurd rfl h, fun _ => .inl rfl, fun _ => rfl⟩
    | store b _ start open31 => exact receiverInv_stored hs start open31
    | publish | reject => exact receiverInv_closed hs rfl rfl
    | reset => exact absurd rfl hrst
    | _ => cases hserial
  · exact receiverInv_congr hs (sameReceiver_of_transition h hrst hserial)

/-! The store (10_state.md R28, R29). -/

theorem storeInv_recorded (r : PerChannel Reading) (hs : StoreInv s) : StoreInv (recordFrame r s) := by
  obtain ⟨h12, h23⟩ := hs.cursors
  refine ⟨⟨?_, ?_⟩, fun c => (recordFrame_channel_entries r s c).2.2⟩
  · exact congrArg (· + 1#2) h12
  · exact congrArg (· + 1#2) h23

theorem storeInv_of_transition (h : Transition i s t) (hrst : i ≠ .rst) (hs : StoreInv s) : StoreInv t := by
  by_cases hfgf : i = .fgf
  · subst hfgf
    cases h with
    | record => exact storeInv_congr (storeInv_recorded s.frameRd hs) ⟨rfl, rfl, rfl⟩
    | noFrame => exact storeInv_congr hs ⟨rfl, rfl, rfl⟩
  · exact storeInv_congr hs (sameStore_of_transition h hrst hfgf)

/-! The display (10_state.md R35 to R37). -/

/-- The two digits that `FGS` shows, as numbers (44_display.md R200). -/
theorem toNat_refreshed_digits (sel : Chan) (a : Nat) (s : State) :
    (refreshed sel a s).digTens.toNat = min a 99 / 10 ∧ (refreshed sel a s).digUnits.toNat = min a 99 % 10 := by
  simp only [refreshed, BitVec.toNat_ofNat]
  omega

/-- The value that `FGS` shows. -/
theorem refreshed_shows (sel : Chan) (a : Nat) (s : State) :
    10 * (refreshed sel a s).digTens.toNat + (refreshed sel a s).digUnits.toNat = min a 99 := by
  obtain ⟨htens, hunits⟩ := toNat_refreshed_digits sel a s
  omega

theorem displayInv_of_transition (h : Transition i s t) (hrst : i ≠ .rst) (hs : DisplayInv s) : DisplayInv t := by
  cases h with
  | reset => exact absurd rfl hrst
  | tickUnits => exact ⟨hs.tens, hs.units, hs.units, .inr (.inr ⟨rfl, rfl⟩)⟩
  | tickTens => exact ⟨hs.tens, hs.units, hs.tens, .inr (.inl ⟨rfl, rfl⟩)⟩
  | refresh _ _ sel a =>
    obtain ⟨htens, hunits⟩ := toNat_refreshed_digits sel a s
    exact ⟨by omega, by omega, hs.shown, hs.onePosition⟩
  | _ => exact displayInv_congr hs ⟨rfl, rfl⟩ ⟨rfl, rfl, rfl⟩

/-! The outputs (10_state.md R39, R52). -/

theorem outputInv_congr (hs : OutputInv s) (hphase : samePhase s t) (havg : t.avg = s.avg) (hsel : sameSelection s t)
    (hdigits : sameDigits s t) (hleds : sameLeds s t) : OutputInv t := by
  obtain ⟨htens, hunits⟩ := hdigits
  obtain ⟨hsafe, hunsafe⟩ := hleds
  refine ⟨?_, ?_, ?_⟩
  · rw [hsafe, hunsafe]; exact hs.exclusive
  · rw [hphase, htens, hunits, havg, hsel]; exact hs.settledDigits
  · rw [hphase, hsafe, hunsafe, havg, hsel]; exact hs.settledLeds

/-- In the middle of a pass only the exclusion of the two lines is asked. -/
theorem outputInv_of_phase_one (hs : OutputInv s) (hphase : t.fgPhase = 1#1) (hleds : sameLeds s t) : OutputInv t := by
  obtain ⟨hsafe, hunsafe⟩ := hleds
  exact ⟨hsafe ▸ hunsafe ▸ hs.exclusive, fun h => by simp [hphase] at h, fun h => by simp [hphase] at h⟩

theorem outputInv_refreshed {sel : Chan} {a : Nat} (ha : a = (s.avg.get (selectedChannel sel)).toNat) :
    OutputInv (refreshed sel a s) := by
  refine ⟨?_, fun _ => ?_, fun _ _ => ?_⟩
  · simp [refreshed]
  · rw [refreshed_shows, ha]; rfl
  · rw [ha]; simp [refreshed]

theorem outputInv_of_transition (h : Transition i s t) (hrst : i ≠ .rst) (hs : OutputInv s) : OutputInv t := by
  cases h with
  | reset => exact absurd rfl hrst
  | record | noFrame => exact outputInv_of_phase_one hs rfl ⟨rfl, rfl⟩
  | refresh _ _ sel a _ ha => exact outputInv_refreshed ha
  | _ => exact outputInv_congr hs rfl rfl rfl ⟨rfl, rfl⟩ ⟨rfl, rfl⟩

/-! The whole. -/

theorem coreInv_of_transition (h : Transition i s t) (hs : CoreInv s) : CoreInv t := by
  by_cases hrst : i = .rst
  · subst hrst
    cases h
    exact coreInv_of_sameVariables rfl resetStateMeetsTheInvariant
  · exact ⟨receiverInv_of_transition h hrst hs.receiver, storeInv_of_transition h hrst hs.store,
      displayInv_of_transition h hrst hs.display, outputInv_of_transition h hrst hs.output⟩

/-- A fetch changes the model's own record of coming events only. -/
theorem sameVariables_of_fetch {u : State} (h : fetch s = .ok (i, u)) : sameVariables s u := by
  rcases fetch_ok h with ⟨-, -, rfl⟩ | ⟨w, rest, -, -, rfl⟩ <;> rfl

/-- Settles O13: a step is a fetch, which the invariant does not see, and a transition. -/
theorem stepKeepsTheInvariant : Obligations.StepKeepsTheInvariant := by
  intro s t hs h
  obtain ⟨i, u, hfetch, hexec⟩ := step_next h
  exact coreInv_of_transition (transition_of_exec hexec) (coreInv_of_sameVariables (sameVariables_of_fetch hfetch) hs)

end Sys2Proof.Proofs

/-!
PROOF. Which lists and sequences of events are executions (45_foreground.md R226, 20_memory.md R75): an event runs
exactly when the foreground's phase allows it, and the phase after it is a function of the phase before.
-/

namespace Sys2Proof.Proofs

open Sys2Proof Sys2Proof.Machine Sys2Proof.Safety

variable {i : Instr} {s t : State}

/-- What an event asks of the phase: the two foreground events alternate, every other event runs at both phases. -/
def phaseAllows (i : Instr) (ph : BitVec 1) : Prop := (i = .fgf → ph = 0#1) ∧ (i = .fgs → ph = 1#1)

/-- The phase after an event. -/
def phaseAfter (ph : BitVec 1) : Instr → BitVec 1
  | .rst => 0#1
  | .fgf => 1#1
  | .fgs => 0#1
  | .rxb _ => ph
  | .btna => ph
  | .btnb => ph
  | .dbt => ph
  | .muxt => ph

theorem phaseAllows_of_transition (h : Transition i s t) : phaseAllows i s.fgPhase := by
  cases h with
  | record _ phase | noFrame _ phase => exact ⟨fun _ => phase, nofun⟩
  | refresh _ phase => exact ⟨nofun, fun _ => phase⟩
  | _ => exact ⟨nofun, nofun⟩

theorem fgPhase_of_transition (h : Transition i s t) : t.fgPhase = phaseAfter s.fgPhase i := by
  cases h <;> rfl

/-- An event has a next state exactly when the phase allows it (30_encoding.md R103). -/
theorem exec_next_iff_phaseAllows : (∃ t, exec i s = .next t) ↔ phaseAllows i s.fgPhase := by
  refine ⟨fun ⟨t, h⟩ => phaseAllows_of_transition (transition_of_exec h), fun ⟨hfgf, hfgs⟩ => ?_⟩
  cases i with
  | fgf => exact ⟨_, if_pos (hfgf rfl)⟩
  | fgs => exact ⟨_, if_pos (hfgs rfl)⟩
  | _ => exact ⟨_, rfl⟩

theorem alternates_cons {ph : BitVec 1} {es : List Instr} :
    alternates ph (i :: es) ↔ phaseAllows i ph ∧ alternates (phaseAfter ph i) es := by
  cases i <;> simp [alternates, phaseAllows, phaseAfter]

theorem alternates_append {ph : BitVec 1} {es fs : List Instr} :
    alternates ph (es ++ fs) ↔ alternates ph es ∧ alternates (es.foldl phaseAfter ph) fs := by
  induction es generalizing ph with
  | nil => simp [alternates]
  | cons i es ih => rw [List.cons_append, alternates_cons, alternates_cons, ih, List.foldl_cons, and_assoc]

theorem alternates_singleton {ph : BitVec 1} : alternates ph [i] ↔ phaseAllows i ph :=
  alternates_cons.trans (and_iff_left trivial)

/-- Settles O10, by induction on the list: its first event runs when the phase allows it, and leads to the phase from
which the rest has to alternate. -/
theorem executionsAreTheAlternatingInterleavings : Obligations.ExecutionsAreTheAlternatingInterleavings := by
  intro es
  induction es with
  | nil => exact fun s => ⟨fun _ => trivial, fun _ => ⟨s, rfl⟩⟩
  | cons i es ih =>
    intro s
    rw [alternates_cons, ← exec_next_iff_phaseAllows]
    constructor
    · rintro ⟨t, h⟩
      obtain ⟨u, hu, ht⟩ := runEvents_cons_next h
      exact ⟨⟨u, hu⟩, fgPhase_of_transition (transition_of_exec hu) ▸ (ih u).1 ⟨t, ht⟩⟩
    · rintro ⟨⟨u, hu⟩, hes⟩
      obtain ⟨t, ht⟩ := (ih u).2 (fgPhase_of_transition (transition_of_exec hu) ▸ hes)
      exact ⟨t, by simpa only [runEvents, hu] using ht⟩

/-! Infinite sequences. -/

/-- The model's own record of coming events has no part in the phase. -/
theorem takes_phaseAfter (h : takes i s t) : phaseAllows i s.fgPhase ∧ t.fgPhase = phaseAfter s.fgPhase i := by
  obtain ⟨q, n, h⟩ := h
  have allowed := phaseAllows_of_transition (transition_of_exec h)
  have after := fgPhase_of_transition (transition_of_exec h)
  exact ⟨allowed, after⟩

/-- The phase at a point of a sequence of events. -/
def phaseAt (ev : Nat → Instr) (ph : BitVec 1) (n : Nat) : BitVec 1 := ((List.range n).map ev).foldl phaseAfter ph

theorem phaseAt_succ (ev : Nat → Instr) (ph : BitVec 1) (n : Nat) :
    phaseAt ev ph (n + 1) = phaseAfter (phaseAt ev ph n) (ev n) := by
  simp [phaseAt, List.range_succ]

/-- The beginnings of a sequence alternate exactly when each of its events is allowed by the phase it meets. -/
theorem beginnings_alternate_iff {ev : Nat → Instr} {ph : BitVec 1} :
    (∀ n, alternates ph ((List.range n).map ev)) ↔ ∀ n, phaseAllows (ev n) (phaseAt ev ph n) := by
  have split : ∀ n, alternates ph ((List.range (n + 1)).map ev) ↔
      alternates ph ((List.range n).map ev) ∧ phaseAllows (ev n) (phaseAt ev ph n) := fun n => by
    rw [List.range_succ, List.map_append, alternates_append, ← alternates_singleton]; rfl
  refine ⟨fun h n => ((split n).1 (h (n + 1))).2, fun h n => ?_⟩
  induction n with
  | zero => trivial
  | succ n ih => exact (split n).2 ⟨ih, h n⟩

theorem fgPhase_of_run {ev : Nat → Instr} {st : Nat → State} (run : InfiniteRun ev st) (n : Nat) :
    (st n).fgPhase = phaseAt ev (st 0).fgPhase n := by
  induction n with
  | zero => rfl
  | succ n ih => rw [phaseAt_succ, ← ih]; exact (takes_phaseAfter (run n)).2

/-- Settles O53: in a run each event is allowed by the phase it meets; and where each is, a next state always exists. -/
theorem everyInfiniteInterleavingIsARun : Obligations.EveryInfiniteInterleavingIsARun := by
  intro ev s
  rw [beginnings_alternate_iff]
  constructor
  · rintro ⟨st, rfl, run⟩ n
    rw [← fgPhase_of_run run]
    exact (takes_phaseAfter (run n)).1
  · intro allowed
    refine exists_sequence (R := fun n => takes (ev n)) (P := fun n u => u.fgPhase = phaseAt ev s.fgPhase n)
      (fun n u hu => ?_) rfl
    obtain ⟨t, ht⟩ := exec_next_iff_phaseAllows.2 (hu ▸ allowed n)
    exact ⟨t, takes_of_exec ht, by rw [phaseAt_succ, ← hu]; exact fgPhase_of_transition (transition_of_exec ht)⟩

/-! What interrupts leave to the foreground (45_foreground.md R234). -/

theorem sameStore_trans {u : State} (h : sameStore s t) (k : sameStore t u) : sameStore s u :=
  ⟨k.1.trans h.1, k.2.1.trans h.2.1, k.2.2.trans h.2.2⟩

/-- A pending frame and a pending press are still pending, and all that the foreground owns is as it was. -/
structure KeptForForeground (s t : State) : Prop where
  frame : s.frameReady = true → t.frameReady = true
  press : s.selPending = true → t.selPending = true
  store : sameStore s t
  selection : sameSelection s t
  digits : sameDigits s t
  leds : sameLeds s t
  phase : samePhase s t

theorem KeptForForeground.refl (s : State) : KeptForForeground s s :=
  ⟨id, id, ⟨rfl, rfl, rfl⟩, rfl, ⟨rfl, rfl⟩, ⟨rfl, rfl⟩, rfl⟩

theorem KeptForForeground.trans {u : State} (h : KeptForForeground s t) (k : KeptForForeground t u) :
    KeptForForeground s u :=
  ⟨k.frame ∘ h.frame, k.press ∘ h.press,
    sameStore_trans h.store k.store, k.selection.trans h.selection,
    ⟨k.digits.1.trans h.digits.1, k.digits.2.trans h.digits.2⟩,
    ⟨k.leds.1.trans h.leds.1, k.leds.2.trans h.leds.2⟩, k.phase.trans h.phase⟩

/-- No event but `FGF` and `RST` clears `frame_ready`, and none but `FGS` and `RST` clears `sel_pending`
(10_state.md R44). -/
theorem frameReady_lasts (h : exec i s = .next t) (hrst : i ≠ .rst) (hfgf : i ≠ .fgf) (hs : s.frameReady = true) :
    t.frameReady = true := by
  obtain ⟨flags, -, -⟩ := flagsAreSetAndClearedAsStated
  exact (flags i s t h).1.2 (.inr ⟨hs, hfgf, hrst⟩)

theorem selPending_lasts (h : exec i s = .next t) (hrst : i ≠ .rst) (hfgs : i ≠ .fgs) (hs : s.selPending = true) :
    t.selPending = true := by
  obtain ⟨flags, -, -⟩ := flagsAreSetAndClearedAsStated
  exact (flags i s t h).2.2 (.inr ⟨hs, hfgs, hrst⟩)

theorem keptForForeground_of_exec (h : exec i s = .next t) (hrst : i ≠ .rst) (hfg : i.agent ≠ .foreground) :
    KeptForForeground s t := by
  have ht := transition_of_exec h
  have hfgf : i ≠ .fgf := fun e => hfg (e ▸ rfl)
  have hfgs : i ≠ .fgs := fun e => hfg (e ▸ rfl)
  obtain ⟨hsel, hdigits, hleds⟩ := sameShown_of_transition ht hrst hfgs
  exact ⟨frameReady_lasts h hrst hfgf, selPending_lasts h hrst hfgs, sameStore_of_transition ht hrst hfgf, hsel, hdigits,
    hleds, samePhase_of_transition ht hrst hfg⟩

/-- Settles O54: an interrupt always has a next state, and what it keeps is kept along the run. -/
theorem interruptsCanDelayTheForegroundForEver : Obligations.InterruptsCanDelayTheForegroundForEver := by
  intro ev s interrupts
  obtain ⟨st, start, run⟩ := exists_sequence (P := fun _ _ => True) (s := s)
    (R := fun n u t => takes (ev n) u t ∧ KeptForForeground u t)
    (fun n u _ => by
      obtain ⟨hfg, hrst⟩ := interrupts n
      obtain ⟨t, ht⟩ := exec_arrival hfg u
      exact ⟨t, ⟨takes_of_exec ht, keptForForeground_of_exec ht hrst hfg⟩, trivial⟩) trivial
  have kept : ∀ n, KeptForForeground s (st n) := fun n => by
    induction n with
    | zero => exact start ▸ .refl (st 0)
    | succ n ih => exact ih.trans (run n).2
  exact ⟨st, start, fun n => (run n).1, fun n => ⟨(kept n).frame, (kept n).press, (kept n).store, (kept n).selection,
    (kept n).digits, (kept n).leds, (kept n).phase⟩⟩

end Sys2Proof.Proofs

/-!
PROOF. One `RXB` (40_frame_receiver.md R120 to R122): an ordinary store, a desync, and what may reach the mailbox.
-/

namespace Sys2Proof.Proofs

open Sys2Proof Sys2Proof.Machine Sys2Proof.Safety

/-- The cursor advances modulo 32 (40_frame_receiver.md R121). -/
theorem advanced_cursor (p : BitVec 5) : p + 1#5 = BitVec.ofNat 5 ((p.toNat + 1) % 32) :=
  BitVec.eq_of_toNat_eq (by simp [BitVec.toNat_add])

/-- Settles O14: the `store` transition, and a read after its write. -/
theorem rxbStoresAnOrdinaryByte : Obligations.RxbStoresAnOrdinaryByte := by
  intro b s start open31
  refine ⟨_, exec_of_transition (.store b s start open31), ?_, read_write_same _ _ _,
    fun a ha => read_write_other _ _ ha⟩
  rw [advanced_cursor]

/-- Settles O15: the `desync` transition; past cursor 0 the receiver's invariant has the start marker in byte 0. -/
theorem rxbDesyncDiscardsEverything : Obligations.RxbDesyncDiscardsEverything := by
  intro b s start
  refine ⟨⟨_, exec_of_transition (.desync b s start), rfl, fun _ => rfl⟩, fun inv => by_contra fun hpos => ?_⟩
  rw [if_neg hpos] at start
  exact start (inv.assembling hpos)

/-- Settles O18: the `publish` transition alone writes the mailbox's readings. -/
theorem onlyValidFramesReachTheMailbox : Obligations.OnlyValidFramesReachTheMailbox := by
  intro i s t h hrst changed
  cases transition_of_exec h with
  | reset => exact absurd rfl hrst
  | publish b _ valid => exact ⟨b, rfl, valid, rfl, frameReadings_eq s⟩
  | _ => exact absurd rfl changed

end Sys2Proof.Proofs

/-!
PROOF. The canonical form of the frame buffer (assumption log 8): a listed cell differs from what an unlisted address
reads as, and the order leaves one place for it.
-/

namespace Sys2Proof.Proofs

open Sys2Proof Sys2Proof.Machine

/-- An address below every listed one is unlisted. -/
theorem read_below {m : Memory} {a : Nat} (h : ∀ c ∈ m, a < c.1) : Memory.read m a = fbUnlisted := by
  induction m with
  | nil => rfl
  | cons c m ih =>
    obtain ⟨hc, hm⟩ := List.forall_mem_cons.1 h
    rw [Memory.read, if_neg (by omega)]
    exact ih hm

/-- The head of a canonical list: its address is below the others, its value is not the unlisted one, and the rest is
canonical. -/
theorem wf_cons {a : Nat} {v : Byte} {m : Memory} (h : Memory.wf ((a, v) :: m)) :
    (∀ c ∈ m, a < c.1) ∧ v ≠ fbUnlisted ∧ Memory.wf m := by
  obtain ⟨hsorted, hcells⟩ := h
  obtain ⟨hbelow, hsorted⟩ := List.pairwise_cons.1 hsorted
  obtain ⟨⟨-, hv⟩, hcells⟩ := List.forall_mem_cons.1 hcells
  exact ⟨hbelow, hv, hsorted, hcells⟩

/-- The least listed address of one list is not below those of a list that reads alike. -/
theorem not_below_of_read_eq {a : Nat} {v : Byte} {m n : Memory} (hv : v ≠ fbUnlisted)
    (alike : Memory.read ((a, v) :: m) a = Memory.read n a) : ¬∀ c ∈ n, a < c.1 := fun below => by
  rw [read_below below, Memory.read, if_pos rfl] at alike
  exact hv alike

/-- Settles O24, by induction on the list: the two heads are the least listed addresses, so they are the same cell. -/
theorem canonicalBuffersThatReadAlikeAreEqual : Obligations.CanonicalBuffersThatReadAlikeAreEqual := by
  intro m
  induction m with
  | nil =>
    rintro (_ | ⟨⟨b, u⟩, n⟩) - hn alike
    · rfl
    · exact absurd (by simp) (not_below_of_read_eq (wf_cons hn).2.1 (alike b).symm)
  | cons c m ih =>
    obtain ⟨a, v⟩ := c
    rintro (_ | ⟨⟨b, u⟩, n⟩) hm hn alike
    · exact absurd (by simp) (not_below_of_read_eq (wf_cons hm).2.1 (alike a))
    · obtain ⟨hma, hv, hmtail⟩ := wf_cons hm
      obtain ⟨hnb, hu, hntail⟩ := wf_cons hn
      have hab : a = b := by
        have h1 : ¬a < b := fun h => not_below_of_read_eq hv (alike a)
          (List.forall_mem_cons.2 ⟨h, fun c hc => h.trans (hnb c hc)⟩)
        have h2 : ¬b < a := fun h => not_below_of_read_eq hu (alike b).symm
          (List.forall_mem_cons.2 ⟨h, fun c hc => h.trans (hma c hc)⟩)
        omega
      subst hab
      have hvu : v = u := by simpa [Memory.read] using alike a
      have tails : ∀ x, Memory.read m x = Memory.read n x := fun x => by
        by_cases hx : a = x
        · rw [← hx, read_below hma, read_below hnb]
        · simpa [Memory.read, hx] using alike x
      rw [hvu, ih n hmtail hntail tails]

end Sys2Proof.Proofs

/-!
PROOF. The checksum of a frame (30_encoding.md section 1): its field lies inside its own sum, and `VFRAME` solves for it.
-/

namespace Sys2Proof.Proofs

open Sys2Proof Sys2Proof.Machine

/-- The checksum input of a frame is the sum of bytes 0 to 28 and the checksum's own high byte. -/
theorem sum_take_thirty (f : Frame) :
    ((f.toList.take 30).map (fun b => b.toNat)).sum = ((f.toList.take 29).map (fun b => b.toNat)).sum + f[29].toNat := by
  rw [List.take_succ_eq_append_getElem (i := 29) (by simp), List.map_append, List.sum_append]
  simp

/-- The solutions of the checksum equation in its two bytes. -/
theorem checksum_solutions {sum hi lo : Nat} (hlo : lo < 256) :
    sum + hi = 256 * hi + lo ↔
      (hi = sum / 255 ∧ lo = sum % 255) ∨ (255 ∣ sum ∧ hi + 1 = sum / 255 ∧ lo = 255) := by
  omega

/-- Settles O21. -/
theorem checksumFieldSolutions : Obligations.ChecksumFieldSolutions := by
  intro f start sentinel
  rw [← checksum_solutions f[30].isLt, ← sum_take_thirty]
  exact ⟨fun ⟨_, _, sum⟩ => sum, fun sum => ⟨start, sentinel, sum⟩⟩

/-- A reading is its two bytes (30_encoding.md R104). -/
theorem field16_high_low (r : Reading) : field16 (highByte r) (lowByte r) = r := by
  apply BitVec.eq_of_toNat_eq
  rw [toNat_field16, highByte, lowByte, BitVec.extractLsb'_toNat, BitVec.extractLsb'_toNat, Nat.shiftRight_eq_div_pow]
  have := r.isLt
  omega

/-- The listed bytes 0 to 28 of a `VFRAME` (30_encoding.md R111). -/
theorem vframe_take (r1 r2 r3 : Reading) :
    (vframe r1 r2 r3).toList.take 29 =
      0x42#8 :: List.replicate 9 0#8 ++ [highByte r1, lowByte r1, highByte r2, lowByte r2, highByte r3, lowByte r3] ++
        List.replicate 13 0#8 := rfl

theorem sum_vframe (r1 r2 r3 : Reading) :
    (((vframe r1 r2 r3).toList.take 29).map (fun b => b.toNat)).sum = vframeSum r1 r2 r3 := by
  rw [vframe_take]
  simp [vframeSum, Nat.add_assoc]

/-- The sum of a `VFRAME` has a quotient by 255 that fits a byte. -/
theorem vframeSum_lt (r1 r2 r3 : Reading) : vframeSum r1 r2 r3 < 255 * 256 := by
  have hbyte : ∀ b : Byte, b.toNat < 256 := fun b => b.isLt
  have := hbyte (highByte r1)
  have := hbyte (lowByte r1)
  have := hbyte (highByte r2)
  have := hbyte (lowByte r2)
  have := hbyte (highByte r3)
  have := hbyte (lowByte r3)
  unfold vframeSum
  omega

/-- The checksum bytes of a `VFRAME` (30_encoding.md R111). -/
theorem toNat_vframe_checksum (r1 r2 r3 : Reading) :
    (vframe r1 r2 r3)[29].toNat = vframeSum r1 r2 r3 / 255 ∧ (vframe r1 r2 r3)[30].toNat = vframeSum r1 r2 r3 % 255 := by
  have hsum := vframeSum_lt r1 r2 r3
  have h29 : (vframe r1 r2 r3)[29] = BitVec.ofNat 8 (vframeSum r1 r2 r3 / 255) := rfl
  have h30 : (vframe r1 r2 r3)[30] = BitVec.ofNat 8 (vframeSum r1 r2 r3 % 255) := rfl
  rw [h29, h30, BitVec.toNat_ofNat, BitVec.toNat_ofNat]
  omega

/-- Settles O22: `VFRAME` has the first of the two solutions of the checksum equation. -/
theorem vframeIsValid : Obligations.VframeIsValid := by
  intro r1 r2 r3
  have sentinel : (0x01#8 : Byte) ≠ 0x00#8 := by decide
  have checksum := toNat_vframe_checksum r1 r2 r3
  rw [← sum_vframe] at checksum
  exact ⟨(checksumFieldSolutions (vframe r1 r2 r3) rfl sentinel).2 (.inl checksum), field16_high_low r1,
    field16_high_low r2, field16_high_low r3⟩

end Sys2Proof.Proofs

/-!
PROOF. The history ring as a sliding window (41_rolling_average.md section 2): counted back from the cursor, a ring that
started zero-filled holds the latest readings first.
-/

namespace Sys2Proof.Proofs

open Sys2Proof Sys2Proof.Machine

variable {c : MeasChannel}

/-- The sum of the four entries, counted back from any of them. -/
theorem sum_entries_from (ring : Ring) (q : BitVec 2) :
    (ringRead ring 0#2).toNat + (ringRead ring 1#2).toNat + (ringRead ring 2#2).toNat + (ringRead ring 3#2).toNat =
      (ringRead ring (q - 0#2)).toNat + (ringRead ring (q - 1#2)).toNat + (ringRead ring (q - 2#2)).toNat +
        (ringRead ring (q - 3#2)).toNat := by
  have positions : q = 0#2 ∨ q = 1#2 ∨ q = 2#2 ∨ q = 3#2 := by revert q; decide
  rcases positions with rfl | rfl | rfl | rfl <;> simp only [BitVec.reduceSub] <;> omega

/-- A channel's ring holds `readings`, the latest first and zero where there are none: the entry `k` places before the
last one written is reading `k`. -/
def HoldsLatest (c : MeasChannel) (readings : List Reading) (s : State) : Prop :=
  ∀ k : BitVec 2, ringRead (s.hist.get c) (s.histPos.get c - 1#2 - k) = readings.getD k.toNat 0#16

/-- Counted back from an advanced cursor: the entry just written is first, and every other is one place further back. -/
theorem back_from_advanced_cursor : ∀ p k : BitVec 2, p + 1#2 - 1#2 - 0#2 = p ∧
    (k ≠ 0#2 → p + 1#2 - 1#2 - k ≠ p ∧ p + 1#2 - 1#2 - k = p - 1#2 - (k - 1#2) ∧ k.toNat = (k - 1#2).toNat + 1) := by
  decide

/-- `REC` puts its reading in front, and every other moves one place back. -/
theorem holdsLatest_recordFrame {readings : List Reading} {s : State} (r : PerChannel Reading)
    (h : HoldsLatest c readings s) : HoldsLatest c (r.get c :: readings) (recordFrame r s) := by
  intro k
  obtain ⟨hist, cursor, -⟩ := recordFrame_channel r s c
  rw [hist, cursor, ringRead_ringWrite]
  obtain ⟨first, further⟩ := back_from_advanced_cursor (s.histPos.get c) k
  by_cases hk : k = 0#2
  · rw [hk, if_pos first]
    rfl
  · obtain ⟨other, place, index⟩ := further hk
    rw [if_neg other, place, h, index, List.getD_cons_succ]

/-- After a list of recordings a ring that started zero-filled holds their readings, the last recorded first. -/
theorem holdsLatest_after_recordings {s : State} (zero : ∀ j : BitVec 2, ringRead (s.hist.get c) j = 0#16)
    (rs : List (PerChannel Reading)) :
    HoldsLatest c (rs.reverse.map (·.get c)) (rs.foldl (fun u r => recordFrame r u) s) := by
  induction rs using List.reverseRecOn with
  | nil => exact fun k => zero _
  | append_singleton rs r ih =>
    rw [List.foldl_append, List.reverse_append]
    exact holdsLatest_recordFrame r ih

theorem sum_take_four (l : List Reading) :
    ((l.take 4).map (fun v => v.toNat)).sum =
      (l.getD 0 0#16).toNat + (l.getD 1 0#16).toNat + (l.getD 2 0#16).toNat + (l.getD 3 0#16).toNat := by
  match l with
  | [] | [_] | [_, _] | [_, _, _] => simp [Nat.add_assoc]
  | _ :: _ :: _ :: _ :: _ => simp [Nat.add_assoc]

/-- Settles O27: the four entries, counted back from the cursor, are the last four readings. -/
theorem ringIsASlidingWindow : Obligations.RingIsASlidingWindow := by
  intro rs s c zero nonempty
  have held := holdsLatest_after_recordings zero rs
  rw [avg_after_recordings nonempty, toNat_ringAverage]
  generalize rs.foldl (fun u r => recordFrame r u) s = t at held
  rw [sum_entries_from _ (t.histPos.get c - 1#2), held, held, held, held]
  have window := sum_take_four (rs.reverse.map (·.get c))
  rw [← List.map_take, List.map_map] at window
  exact congrArg (· / 4) window.symm

end Sys2Proof.Proofs

/-!
PROOF. `CLAMP` and `THR` (41_rolling_average.md R154, R155): a value above 99 is above 50 after clamping too.
-/

namespace Sys2Proof.Proofs

open Sys2Proof Sys2Proof.Machine

/-- Settles O30. -/
theorem clampDoesNotChangeTheDecision : Obligations.ClampDoesNotChangeTheDecision := by
  intro a
  have clamped : (BitVec.ofNat 16 (clamp a).val).toNat = min a.toNat 99 := by
    rw [val_clamp, BitVec.toNat_ofNat]
    omega
  refine ⟨val_clamp a, ?_⟩
  by_cases above : 50 < a.toNat
  · rw [threshold_of_above above, threshold_of_above (by omega)]
  · rw [threshold_of_not_above (by omega), threshold_of_not_above (by omega)]

end Sys2Proof.Proofs

/-!
PROOF. Runs of events: an invariant of every allowed step holds after a run, and a relation that every step keeps, with
equal outputs, cannot be observed by a run.
-/

namespace Sys2Proof.Proofs

open Sys2Proof Sys2Proof.Machine Sys2Proof.Safety

/-- What every event of a list keeps holds after a run of the list. -/
theorem runEvents_induction {P : State → Prop} {es : List Instr} {s t : State}
    (keep : ∀ i ∈ es, ∀ u v, P u → exec i u = .next v → P v) (hs : P s) (run : runEvents es s = .next t) : P t := by
  induction es generalizing s with
  | nil => exact next_injective run ▸ hs
  | cons i es ih =>
    obtain ⟨u, hu, ht⟩ := runEvents_cons_next run
    exact ih (fun j hj => keep j (List.mem_cons_of_mem i hj)) (keep i List.mem_cons_self s u hs hu) ht

/-- A run of a list that is split in two passes through a state between them. -/
theorem runEvents_append_next {es fs : List Instr} {s t : State} (run : runEvents (es ++ fs) s = .next t) :
    ∃ u, runEvents es s = .next u ∧ runEvents fs u = .next t := by
  rw [runEvents_append] at run
  split at run
  · next u hu => exact ⟨u, hu, run⟩
  · cases run
  · cases run

theorem runOutputs_cons {i : Instr} {es : List Instr} {s t : State} (h : exec i s = .next t) :
    runOutputs (i :: es) s = t.outputs ++ runOutputs es t := by
  rw [runOutputs, h]

/-- A relation of states such that from related states an event leads to related states with the same output list. -/
def Simulates (R : State → State → Prop) : Prop :=
  ∀ i s t s', R s t → exec i s = .next s' → ∃ t', exec i t = .next t' ∧ R s' t' ∧ t'.outputs = s'.outputs

/-- What no event can tell apart no run can. -/
theorem runEvents_simulates {R : State → State → Prop} (sim : Simulates R) {es : List Instr} {s t s' : State} (h : R s t)
    (run : runEvents es s = .next s') :
    (∃ t', runEvents es t = .next t' ∧ R s' t') ∧ runOutputs es t = runOutputs es s := by
  induction es generalizing s t with
  | nil => exact ⟨⟨t, rfl, next_injective run ▸ h⟩, rfl⟩
  | cons i es ih =>
    obtain ⟨u, hu, hrest⟩ := runEvents_cons_next run
    obtain ⟨v, hv, huv, houts⟩ := sim i s t u h hu
    obtain ⟨⟨t', ht', hst⟩, hrestOuts⟩ := ih huv hrest
    refine ⟨⟨t', by simpa only [runEvents, hv] using ht', hst⟩, ?_⟩
    rw [runOutputs_cons hv, runOutputs_cons hu, houts, hrestOuts]

end Sys2Proof.Proofs

/-!
PROOF. Stale bytes (40_frame_receiver.md R127): the receiver reads no byte at or above the cursor before it has
overwritten it, and nothing else reads the buffer at all.
-/

namespace Sys2Proof.Proofs

open Sys2Proof Sys2Proof.Machine Sys2Proof.Safety

variable {b : Byte} {m : Memory} {s s' : State}

/-- The state with another frame buffer. -/
abbrev withBuffer (m : Memory) (s : State) : State := { s with rxBuf := m }

/-- A buffer that agrees with that of `s` below the cursor. -/
def AgreesBelow (m : Memory) (s : State) : Prop := ∀ a, a < s.rxPos.toNat → Memory.read m a = s.fb a

theorem sameButStaleBytes_iff {t : State} :
    sameButStaleBytes s t ↔ ∃ m, t = withBuffer m s ∧ AgreesBelow m s := by
  constructor
  · rintro ⟨ht, hfb⟩
    exact ⟨t.rxBuf, ht, hfb⟩
  · rintro ⟨m, rfl, hfb⟩
    exact ⟨rfl, hfb⟩

/-- Nothing is below a cursor of zero. -/
theorem agreesBelow_of_rxPos_zero (h : s.rxPos = 0#5) : AgreesBelow m s := fun a ha => by
  simp [h] at ha

/-- The start byte that `RXB` tests is the byte it stores, or below the cursor. -/
theorem startByte_congr (h : AgreesBelow m s) :
    (if (withBuffer m s).rxPos = 0#5 then b else (withBuffer m s).fb 0) = if s.rxPos = 0#5 then b else s.fb 0 := by
  by_cases hpos : s.rxPos = 0#5
  · rw [if_pos hpos, if_pos hpos]
  · rw [if_neg hpos, if_neg hpos]
    exact h 0 (Nat.pos_of_ne_zero (mt (rxPos_toNat_zero s).1 hpos))

/-- At the last index all the bytes of the frame but the one being stored are below the cursor. -/
theorem fb_congr_of_full (h : AgreesBelow m s) (full : s.rxPos = 31#5) :
    ∀ a, a < 31 → (withBuffer m s).fb a = s.fb a := fun a ha => h a (by rw [full]; exact ha)

theorem validates_congr (h : AgreesBelow m s) : validates b (withBuffer m s) ↔ validates b s := by
  refine and_congr_right fun full => ?_
  have hfb := fb_congr_of_full h full
  rw [hfb 0 (by omega), ← checksumOk_iff, ← checksumOk_iff, checksumOk_congr hfb]

/-- The byte just stored and those below it are below the advanced cursor, unless that wraps to zero. -/
theorem agreesBelow_stored (h : AgreesBelow m s) (hs' : s'.rxBuf = Memory.write s.rxBuf s.rxPos.toNat b)
    (hpos : s'.rxPos = s.rxPos + 1#5) : AgreesBelow (Memory.write m s.rxPos.toNat b) s' := fun a ha => by
  have hle : a ≤ s.rxPos.toNat := by
    rw [hpos, BitVec.toNat_add] at ha
    exact Nat.le_of_lt_succ (ha.trans_le (Nat.mod_le _ _))
  rw [State.fb, hs', read_write, read_write]
  by_cases hat : a = s.rxPos.toNat
  · rw [if_pos hat, if_pos hat]
  · rw [if_neg hat, if_neg hat]
    exact h a (by omega)

/-- Every transition can be made with another buffer that agrees below the cursor, and keeps the agreement. -/
theorem transition_withBuffer {i : Instr} (h : AgreesBelow m s) (ht : Transition i s s') :
    ∃ m', Transition i (withBuffer m s) (withBuffer m' s') ∧ AgreesBelow m' s' := by
  by_cases hrst : i = .rst
  · subst hrst
    cases ht
    exact ⟨[], .reset (withBuffer m s), agreesBelow_of_rxPos_zero rfl⟩
  by_cases hserial : i.agent = .serial
  · cases ht with
    | desync b _ start =>
      exact ⟨[], .desync b (withBuffer m s) (startByte_congr h ▸ start), agreesBelow_of_rxPos_zero rfl⟩
    | store b _ start open31 =>
      exact ⟨Memory.write m s.rxPos.toNat b, .store b (withBuffer m s) ((startByte_congr h).trans start) open31,
        agreesBelow_stored h rfl rfl⟩
    | publish b _ valid =>
      have readings := frameReadings_congr (fb_congr_of_full h valid.1)
      refine ⟨closedBuffer b (withBuffer m s), ?_, agreesBelow_of_rxPos_zero rfl⟩
      rw [← readings]
      exact .publish b (withBuffer m s) ((validates_congr h).2 valid)
    | reject b _ full start sentinel mismatch =>
      exact ⟨_, .reject b (withBuffer m s) full ((fb_congr_of_full h full 0 (by omega)).trans start) sentinel
        (mt (validates_congr h).1 mismatch), agreesBelow_of_rxPos_zero rfl⟩
    | reset => exact absurd rfl hrst
    | _ => cases hserial
  · obtain ⟨hbuf, hpos⟩ := sameReceiver_of_transition ht hrst hserial
    have cursor : withReceiver m s.rxPos s' = withBuffer m s' := by rw [withReceiver, ← hpos]
    refine ⟨m, cursor ▸ transition_withReceiver m s.rxPos hserial hrst ht, fun a ha => ?_⟩
    rw [State.fb, hbuf]
    exact h a (hpos ▸ ha)

theorem sameButStaleBytes_simulates : Simulates sameButStaleBytes := by
  intro i s t s' hst h
  obtain ⟨m, rfl, agrees⟩ := sameButStaleBytes_iff.1 hst
  obtain ⟨m', ht, agrees'⟩ := transition_withBuffer agrees (transition_of_exec h)
  exact ⟨_, exec_of_transition ht, sameButStaleBytes_iff.2 ⟨m', rfl, agrees'⟩, rfl⟩

/-- Settles O23. -/
theorem staleBytesAreUnobservable : Obligations.StaleBytesAreUnobservable :=
  fun _ _ _ _ => runEvents_simulates sameButStaleBytes_simulates

end Sys2Proof.Proofs

/-!
PROOF. Fields that mean nothing where they stand (93_implementation_defined.md U4): `frame_rd` is read under
`frame_ready`, `sel_event` under `sel_pending` and `deb_cand` in `Debouncing` only, and whatever makes one of them mean
something writes it in the same step.
-/

namespace Sys2Proof.Proofs

open Sys2Proof Sys2Proof.Machine Sys2Proof.Safety

variable {i : Instr} {s t s' : State} {r : PerChannel Reading} {e c : Chan}

/-- The state with other values in the three fields. -/
abbrev withDontCares (r : PerChannel Reading) (e c : Chan) (s : State) : State :=
  { s with frameRd := r, selEvent := e, debCand := c }

/-- The values agree with those of `s` where the fields mean something. -/
structure AgreesWhereCared (r : PerChannel Reading) (e c : Chan) (s : State) : Prop where
  frame : s.frameReady = true → r = s.frameRd
  press : s.selPending = true → e = s.selEvent
  candidate : s.debState = .debouncing → c = s.debCand

theorem sameButDontCares_iff :
    sameButDontCares s t ↔ ∃ r e c, t = withDontCares r e c s ∧ AgreesWhereCared r e c s := by
  constructor
  · rintro ⟨ht, hframe, hpress, hcand⟩
    exact ⟨t.frameRd, t.selEvent, t.debCand, ht, hframe, hpress, hcand⟩
  · rintro ⟨r, e, c, rfl, hframe, hpress, hcand⟩
    exact ⟨rfl, hframe, hpress, hcand⟩

/-- Every transition can be made with other values in the three fields, and keeps the agreement. -/
theorem transition_withDontCares (h : AgreesWhereCared r e c s) (ht : Transition i s s') :
    ∃ r' e' c', Transition i (withDontCares r e c s) (withDontCares r' e' c' s') ∧ AgreesWhereCared r' e' c' s' := by
  obtain ⟨hframe, hpress, hcand⟩ := h
  cases ht with
  | reset => exact ⟨_, _, _, .reset (withDontCares r e c s), fun _ => rfl, fun _ => rfl, fun _ => rfl⟩
  | desync b _ start => exact ⟨r, e, c, .desync b (withDontCares r e c s) start, hframe, hpress, hcand⟩
  | store b _ start open31 => exact ⟨r, e, c, .store b (withDontCares r e c s) start open31, hframe, hpress, hcand⟩
  | publish b _ valid => exact ⟨_, e, c, .publish b (withDontCares r e c s) valid, fun _ => rfl, hpress, hcand⟩
  | reject b _ full start sentinel mismatch =>
    exact ⟨r, e, c, .reject b (withDontCares r e c s) full start sentinel mismatch, hframe, hpress, hcand⟩
  | edgeA _ idle => exact ⟨r, e, .A, .edgeA (withDontCares r e c s) idle, hframe, hpress, fun _ => rfl⟩
  | edgeB _ idle => exact ⟨r, e, .B, .edgeB (withDontCares r e c s) idle, hframe, hpress, fun _ => rfl⟩
  | ignoredA _ busy => exact ⟨r, e, c, .ignoredA (withDontCares r e c s) busy, hframe, hpress, hcand⟩
  | ignoredB _ busy => exact ⟨r, e, c, .ignoredB (withDontCares r e c s) busy, hframe, hpress, hcand⟩
  | expiry _ busy =>
    exact ⟨r, c, c, .expiry (withDontCares r e c s) busy, hframe, fun _ => hcand busy, nofun⟩
  | expiryIdle _ idle => exact ⟨r, e, c, .expiryIdle (withDontCares r e c s) idle, hframe, hpress, hcand⟩
  | tickUnits _ index => exact ⟨r, e, c, .tickUnits (withDontCares r e c s) index, hframe, hpress, hcand⟩
  | tickTens _ index => exact ⟨r, e, c, .tickTens (withDontCares r e c s) index, hframe, hpress, hcand⟩
  | record _ phase ready =>
    obtain rfl := hframe ready
    exact ⟨s.frameRd, e, c, .record (withDontCares s.frameRd e c s) phase ready, nofun, hpress, hcand⟩
  | noFrame _ phase empty => exact ⟨r, e, c, .noFrame (withDontCares r e c s) phase empty, hframe, hpress, hcand⟩
  | refresh _ phase sel a hsel ha =>
    have selected : sel = if s.selPending = true then e else s.selection := by
      rw [hsel]
      split
      · next pending => exact (hpress pending).symm
      · rfl
    exact ⟨r, e, c, .refresh (withDontCares r e c s) phase sel a selected ha, hframe, nofun, hcand⟩

theorem sameButDontCares_simulates : Simulates sameButDontCares := by
  intro i s t s' hst h
  obtain ⟨r, e, c, rfl, agrees⟩ := sameButDontCares_iff.1 hst
  obtain ⟨r', e', c', ht, agrees'⟩ := transition_withDontCares agrees (transition_of_exec h)
  exact ⟨_, exec_of_transition ht, sameButDontCares_iff.2 ⟨r', e', c', rfl, agrees'⟩, rfl⟩

/-- Settles O50. -/
theorem dontCareFieldsAreUnobservable : Obligations.DontCareFieldsAreUnobservable :=
  fun _ _ _ _ => runEvents_simulates sameButDontCares_simulates

end Sys2Proof.Proofs

/-!
PROOF. The reception of a frame (40_frame_receiver.md sections 2 and 3): from cursor 0 the receiver assembles the bytes
of a frame at the addresses below its cursor, whatever the other agents do between them, and its last byte publishes or
drops it.
-/

namespace Sys2Proof.Proofs

open Sys2Proof Sys2Proof.Machine Sys2Proof.Safety

variable {i : Instr} {b : Byte} {bytes : List Byte} {es : List Instr} {s t u : State}

/-- The bytes `bytes` have been received since the cursor was 0, and stand in the buffer from address 0. -/
structure Assembling (bytes : List Byte) (s : State) : Prop where
  cursor : s.rxPos.toNat = bytes.length
  stored : ∀ a (h : a < bytes.length), s.fb a = bytes[a]

theorem assembling_nil (h : s.rxPos = 0#5) : Assembling [] s := ⟨(rxPos_toNat_zero s).2 h, nofun⟩

theorem assembling_congr (hs : Assembling bytes s) (h : sameReceiver s t) : Assembling bytes t := by
  obtain ⟨hbuf, hpos⟩ := h
  exact ⟨hpos ▸ hs.cursor, fun a ha => by rw [State.fb, hbuf]; exact hs.stored a ha⟩

/-- The start byte that `RXB` tests is the first of the bytes received. -/
theorem startByte_assembling (hs : Assembling bytes s) :
    (bytes ++ [b]).head? = some (if s.rxPos = 0#5 then b else s.fb 0) := by
  have cursor := hs.cursor
  cases bytes with
  | nil => rw [if_pos ((rxPos_toNat_zero s).1 cursor)]; rfl
  | cons first rest =>
    have past : s.rxPos ≠ 0#5 := fun e => by simp [e] at cursor
    rw [if_neg past, hs.stored 0 (Nat.zero_lt_succ _)]
    rfl

/-- The next byte of a frame that started with the marker is stored, and only it. -/
theorem assembling_rxb (hs : Assembling bytes s) (start : (bytes ++ [b]).head? = some 0x42#8) (hlen : bytes.length < 31)
    (h : exec (.rxb b) s = .next t) : Assembling (bytes ++ [b]) t ∧ sameMailbox s t := by
  have cursor := hs.cursor
  have marker : (if s.rxPos = 0#5 then b else s.fb 0) = 0x42#8 :=
    Option.some.inj ((startByte_assembling hs).symm.trans start)
  have notLast : s.rxPos ≠ 31#5 := fun e => by rw [e] at cursor; simp at cursor; omega
  cases transition_of_exec h with
  | desync _ _ bad => exact absurd marker bad
  | publish _ _ valid => exact absurd valid.1 notLast
  | reject _ _ full => exact absurd full notLast
  | store =>
    refine ⟨⟨?_, fun a ha => ?_⟩, rfl, rfl⟩
    · rw [List.length_append, ← cursor, BitVec.toNat_add]
      exact Nat.mod_eq_of_lt (by simp; omega)
    · rw [State.fb, read_write, cursor]
      split
      · next e => simp [e]
      · next e =>
        have below : a < bytes.length := by simp at ha; omega
        rw [List.getElem_append_left below]
        exact hs.stored a below

theorem sameMailbox_trans (h : sameMailbox s t) (k : sameMailbox t u) : sameMailbox s u :=
  ⟨k.1.trans h.1, k.2.trans h.2⟩

/-- An event is an `RXB`, or it carries no byte and is not the serial agent's. -/
theorem rxb_or_other (i : Instr) : (∃ b, i = .rxb b) ∨ (receivedByte i = none ∧ i.agent ≠ .serial) := by
  cases i with
  | rxb b => exact .inl ⟨b, rfl⟩
  | _ => exact .inr ⟨rfl, nofun⟩

/-- Between its bytes a frame may be waited on for any time: the receiver assembles what is received, and the mailbox
keeps what it holds unless the foreground takes it. -/
theorem assembling_run (hs : Assembling bytes s) (start : (bytes ++ receivedBytes es).head? = some 0x42#8)
    (hlen : (bytes ++ receivedBytes es).length ≤ 31) (hrst : .rst ∉ es) (run : runEvents es s = .next t) :
    Assembling (bytes ++ receivedBytes es) t ∧ (.fgf ∉ es → sameMailbox s t) := by
  induction es generalizing bytes s with
  | nil =>
    cases next_injective run
    exact ⟨by simpa [receivedBytes] using hs, fun _ => ⟨rfl, rfl⟩⟩
  | cons i es ih =>
    obtain ⟨u, hu, hrest⟩ := runEvents_cons_next run
    obtain ⟨hi, hes⟩ := not_or.1 (mt List.mem_cons.2 hrst)
    rcases rxb_or_other i with ⟨b, rfl⟩ | ⟨hnone, hserial⟩
    · have received : bytes ++ receivedBytes (.rxb b :: es) = (bytes ++ [b]) ++ receivedBytes es := by
        simp [receivedBytes, receivedByte]
      rw [received] at start hlen ⊢
      have first : (bytes ++ [b]).head? = some 0x42#8 := by
        rw [List.head?_append_of_ne_nil _ (by simp)] at start
        exact start
      have short : bytes.length < 31 := by simp at hlen; omega
      obtain ⟨hbyte, hmail⟩ := assembling_rxb hs first short hu
      obtain ⟨hall, hmailRest⟩ := ih hbyte start hlen hes hrest
      exact ⟨hall, fun hfgf => sameMailbox_trans hmail (hmailRest (mt (List.mem_cons_of_mem _) hfgf))⟩
    · have received : receivedBytes (i :: es) = receivedBytes es := List.filterMap_cons_none hnone
      rw [received] at start hlen ⊢
      have ht := transition_of_exec hu
      have kept := assembling_congr hs (sameReceiver_of_transition ht (Ne.symm hi) hserial)
      obtain ⟨hall, hmailRest⟩ := ih kept start hlen hes hrest
      refine ⟨hall, fun hfgf => ?_⟩
      obtain ⟨hi', hes'⟩ := not_or.1 (mt List.mem_cons.2 hfgf)
      exact sameMailbox_trans (sameMailbox_of_transition ht (Ne.symm hi) hserial (Ne.symm hi')) (hmailRest hes')

/-- Events that carry no byte leave the receiver as it is, and the mailbox too unless the foreground takes it. -/
theorem receiver_kept_by_run (hnone : receivedBytes es = []) (hrst : .rst ∉ es) (run : runEvents es s = .next t) :
    sameReceiver s t ∧ (.fgf ∉ es → sameMailbox s t) := by
  have other : ∀ i ∈ es, i ≠ .rst ∧ i.agent ≠ .serial := fun i hi => by
    refine ⟨fun e => hrst (e ▸ hi), ?_⟩
    rcases rxb_or_other i with ⟨b, rfl⟩ | ⟨-, hserial⟩
    · exact absurd (List.filterMap_eq_nil_iff.1 hnone _ hi) nofun
    · exact hserial
  constructor
  · refine runEvents_induction (P := sameReceiver s) (fun i hi u v hsu h => ?_) ⟨rfl, rfl⟩ run
    obtain ⟨hbuf, hpos⟩ := sameReceiver_of_transition (transition_of_exec h) (other i hi).1 (other i hi).2
    exact ⟨hbuf.trans hsu.1, hpos.trans hsu.2⟩
  · refine fun hfgf => runEvents_induction (P := sameMailbox s) (fun i hi u v hsu h => ?_) ⟨rfl, rfl⟩ run
    exact sameMailbox_trans hsu (sameMailbox_of_transition (transition_of_exec h) (other i hi).1 (other i hi).2
      fun e => hfgf (e ▸ hi))

/-! The last byte. -/

variable {f : Frame}

/-- All the bytes of `f` but the last have been received since the cursor was 0. -/
abbrev AlmostReceived (f : Frame) (s : State) : Prop := Assembling (f.toList.take 31) s

theorem AlmostReceived.full (h : AlmostReceived f s) : s.rxPos = 31#5 :=
  BitVec.eq_of_toNat_eq (by rw [h.cursor]; simp)

theorem AlmostReceived.fb (h : AlmostReceived f s) (a : Nat) (ha : a < 31) : s.fb a = f[a] := by
  rw [h.stored a (by simpa using ha)]
  simp

theorem AlmostReceived.sum (h : AlmostReceived f s) :
    ((List.range 30).map (fun i => (s.fb i).toNat)).sum = ((f.toList.take 30).map (fun b => b.toNat)).sum := by
  congr 1
  refine List.ext_getElem (by simp) fun a ha _ => ?_
  have : a < 30 := by simpa using ha
  simp [h.fb a (by omega)]

/-- The last byte validates the frame in the buffer exactly when the frame is valid (30_encoding.md R95). -/
theorem AlmostReceived.validates_iff (h : AlmostReceived f s) : validates f[31] s ↔ validFrame f := by
  rw [validates, validFrame, h.sum, h.fb 0 (by omega), h.fb 29 (by omega), h.fb 30 (by omega)]
  exact and_iff_right h.full

theorem AlmostReceived.readings (h : AlmostReceived f s) :
    frameReadings s = ⟨field16 f[10] f[11], field16 f[12] f[13], field16 f[14] f[15]⟩ := by
  rw [frameReadings_eq, h.fb 10 (by omega), h.fb 11 (by omega), h.fb 12 (by omega), h.fb 13 (by omega),
    h.fb 14 (by omega), h.fb 15 (by omega)]

/-- The last byte of a valid frame publishes it and closes the buffer (40_frame_receiver.md R125). -/
theorem AlmostReceived.accept (h : AlmostReceived f s) (valid : validFrame f) (hlast : exec (.rxb f[31]) s = .next t) :
    t.frameReady = true ∧ t.frameRd = ⟨field16 f[10] f[11], field16 f[12] f[13], field16 f[14] f[15]⟩ ∧
      t.rxPos = 0#5 ∧ t.fb 0 = 0x00#8 ∧ t.fb 31 = 0x00#8 := by
  have published := Transition.publish f[31] s (h.validates_iff.2 valid)
  cases transition_unique (transition_of_exec hlast) published
  obtain ⟨h0, h31, -⟩ := closedBuffer_bytes f[31] s
  exact ⟨rfl, h.readings, rfl, h0, h31⟩

/-- The last byte of a frame that is not valid leaves the mailbox alone, whether it completes the frame or, being zero,
is stored as an ordinary byte. -/
theorem AlmostReceived.drop (h : AlmostReceived f s) (start : f[0] = 0x42#8) (invalid : ¬validFrame f)
    (hlast : exec (.rxb f[31]) s = .next t) : sameMailbox s t ∧ t.rxPos = 0#5 ∧ t.fb 31 = 0x00#8 := by
  have marker : s.fb 0 = 0x42#8 := (h.fb 0 (by omega)).trans start
  cases transition_of_exec hlast with
  | desync _ _ bad =>
    rw [h.full, if_neg (by decide)] at bad
    exact absurd marker bad
  | publish _ _ valid => exact absurd (h.validates_iff.1 valid) invalid
  | reject => exact ⟨⟨rfl, rfl⟩, rfl, (closedBuffer_bytes f[31] s).2.1⟩
  | store _ _ _ open31 =>
    refine ⟨⟨rfl, rfl⟩, by rw [h.full]; rfl, ?_⟩
    show Memory.read (Memory.write s.rxBuf s.rxPos.toNat f[31]) 31 = 0x00#8
    rw [open31 h.full, h.full]
    exact read_write_same _ _ _

theorem toList_eq_append_last (f : Frame) : f.toList = f.toList.take 31 ++ [f[31]] := by
  have := List.take_succ_eq_append_getElem (l := f.toList) (i := 31) (by simp)
  rwa [List.take_of_length_le (by simp), Vector.getElem_toList] at this

/-- A run that receives a frame from cursor 0 receives all of it but the last byte, then that byte, then none. -/
theorem reception_split (start : f[0] = 0x42#8) (hpos : s.rxPos = 0#5) (hbytes : receivedBytes es = f.toList)
    (hrst : .rst ∉ es) (run : runEvents es s = .next t) :
    ∃ before after u v, es = before ++ .rxb f[31] :: after ∧ receivedBytes after = [] ∧ AlmostReceived f u ∧
      (.fgf ∉ before → sameMailbox s u) ∧ exec (.rxb f[31]) u = .next v ∧ runEvents after v = .next t := by
  rw [toList_eq_append_last] at hbytes
  obtain ⟨first, rest, rfl, hfirst, hrest⟩ := List.filterMap_eq_append_iff.1 hbytes
  obtain ⟨silent, i, after, rfl, hsilent, hi, hafter⟩ := List.filterMap_eq_cons_iff.1 hrest
  obtain rfl : i = .rxb f[31] := by
    rcases rxb_or_other i with ⟨b, rfl⟩ | ⟨hnone, -⟩
    · exact congrArg Instr.rxb (Option.some.inj hi)
    · exact absurd (hnone.symm.trans hi) nofun
  have hbefore : receivedBytes (first ++ silent) = f.toList.take 31 := by
    rw [receivedBytes, List.filterMap_append, hfirst, List.filterMap_eq_nil_iff.2 hsilent, List.append_nil]
  rw [← List.append_assoc] at hrst run ⊢
  obtain ⟨u, hu, hlast⟩ := runEvents_append_next run
  obtain ⟨v, hv, hend⟩ := runEvents_cons_next hlast
  have marker : (f.toList.take 31).head? = some 0x42#8 := by
    rw [List.head?_take, if_neg (by omega), List.head?_eq_getElem?, ← start]
    simp
  obtain ⟨received, mail⟩ := assembling_run (assembling_nil hpos) (by rwa [List.nil_append, hbefore])
    (by rw [List.nil_append, hbefore]; simp) (mt (List.mem_append_left _) hrst) hu
  rw [List.nil_append, hbefore] at received
  exact ⟨_, after, u, v, rfl, hafter, received, mail, hv, hend⟩

/-- Settles O20: the bytes before the last leave the mailbox alone, the last is dropped, and what comes after it carries
no byte. -/
theorem invalidFrameIsDropped : Obligations.InvalidFrameIsDropped := by
  intro f s t es start invalid hpos hbytes hrst hfgf run
  obtain ⟨before, after, u, v, rfl, hafter, received, mailBefore, hlast, hend⟩ :=
    reception_split start hpos hbytes hrst run
  obtain ⟨hfgfBefore, hfgfAfter⟩ := not_or.1 (mt List.mem_append.2 hfgf)
  obtain ⟨mailLast, hposLast, h31⟩ := received.drop start invalid hlast
  have hrstAfter : .rst ∉ after := fun h => hrst (List.mem_append_right _ (List.mem_cons_of_mem _ h))
  obtain ⟨⟨hbuf, hcursor⟩, mailAfter⟩ := receiver_kept_by_run hafter hrstAfter hend
  obtain ⟨ready, readings⟩ := sameMailbox_trans (sameMailbox_trans (mailBefore hfgfBefore) mailLast)
    (mailAfter (mt (List.mem_cons_of_mem _) hfgfAfter))
  exact ⟨ready, readings, hcursor.trans hposLast, by rw [State.fb, hbuf]; exact h31⟩

/-- If the last event of a list carries a byte, nothing follows the last event that carries one. -/
theorem nothing_after_last_byte {before after : List Instr} (hafter : receivedBytes after = [])
    (hlast : (before ++ i :: after).getLast? = some (.rxb b)) : after = [] := by
  rcases List.eq_nil_or_concat' after with rfl | ⟨silent, j, rfl⟩
  · rfl
  · rw [← List.cons_append, ← List.append_assoc, List.getLast?_concat] at hlast
    obtain rfl := Option.some.inj hlast
    exact absurd (List.filterMap_eq_nil_iff.1 hafter (.rxb b) (by simp)) nofun

theorem accepted_by_run (valid : validFrame f) (hpos : s.rxPos = 0#5) (hbytes : receivedBytes es = f.toList)
    (hrst : .rst ∉ es) (hlast : es.getLast? = some (.rxb f[31])) (run : runEvents es s = .next t) :
    t.frameReady = true ∧ t.frameRd = ⟨field16 f[10] f[11], field16 f[12] f[13], field16 f[14] f[15]⟩ ∧
      t.rxPos = 0#5 ∧ t.fb 0 = 0x00#8 ∧ t.fb 31 = 0x00#8 := by
  obtain ⟨before, after, u, v, rfl, hafter, received, -, hv, hend⟩ := reception_split valid.1 hpos hbytes hrst run
  obtain rfl := nothing_after_last_byte hafter hlast
  cases next_injective hend
  exact received.accept valid hv

theorem receivedBytes_frameEvents (f : Frame) : receivedBytes (frameEvents f) = f.toList := by
  rw [receivedBytes, frameEvents, List.filterMap_map]
  exact List.filterMap_some

theorem getLast_frameEvents (f : Frame) : (frameEvents f).getLast? = some (.rxb f[31]) := by
  rw [frameEvents, toList_eq_append_last, List.map_append]
  simp

/-- Settles O19: the last byte finds the rest of the frame in the buffer; and the bytes back to back, being interrupts
all, do run. -/
theorem validFrameIsAccepted : Obligations.ValidFrameIsAccepted := by
  intro f s valid hpos
  have bytesOnly : ∀ i ∈ frameEvents f, ∃ b, i = .rxb b := fun i hi => by
    obtain ⟨b, -, rfl⟩ := List.mem_map.1 hi
    exact ⟨b, rfl⟩
  refine ⟨fun es t hbytes hrst hlast run => accepted_by_run valid hpos hbytes hrst hlast run, ?_⟩
  obtain ⟨t, run⟩ := runEvents_interrupts (fun i hi => by obtain ⟨b, rfl⟩ := bytesOnly i hi; exact ⟨nofun, nofun⟩) s
  have hrst : .rst ∉ frameEvents f := fun h => by obtain ⟨b, hb⟩ := bytesOnly _ h; cases hb
  obtain ⟨ready, readings, -⟩ :=
    accepted_by_run valid hpos (receivedBytes_frameEvents f) hrst (getLast_frameEvents f) run
  exact ⟨t, run, ready, readings⟩

end Sys2Proof.Proofs

/-!
PROOF. The Threshold Indicator's lines (30_encoding.md section 5): `FGS` drives them as complements, and no other event
but `RST` drives them at all.
-/

namespace Sys2Proof.Proofs

open Sys2Proof Sys2Proof.Machine Sys2Proof.Safety

/-- Exactly one line is active after `FGS` (42_threshold_indicator.md R172). -/
theorem refreshed_one_line (sel : Chan) (a : Nat) (s : State) :
    (refreshed sel a s).ledUnsafe = !(refreshed sel a s).ledSafe := by
  simp [refreshed, ← decide_not]

/-- Settles O31. -/
theorem indicatorStaysLit : Obligations.IndicatorStaysLit := by
  intro i s t h hrst hlit
  have ht := transition_of_exec h
  by_cases hfgs : i = .fgs
  · subst hfgs
    cases ht
    exact refreshed_one_line _ _ s
  · obtain ⟨-, -, hsafe, hunsafe⟩ := sameShown_of_transition ht hrst hfgs
    rw [hsafe, hunsafe]
    exact hlit.resolve_left hfgs

end Sys2Proof.Proofs

/-!
PROOF. A debounce from its edge to its expiry (43_channel_selector.md section 2): while it lasts nothing touches the
candidate and nothing arms the timer, so the expiry posts the line of the edge.
-/

namespace Sys2Proof.Proofs

open Sys2Proof Sys2Proof.Machine Sys2Proof.Safety

variable {i line : Instr} {es : List Instr} {s t : State}

/-- The line of a button-edge event. -/
def edgeLine (i : Instr) : Chan := if i = .btna then .A else .B

theorem eq_btna_or_btnb_of_buttonEdge (h : i.agent = .buttonEdge) : i = .btna ∨ i = .btnb := by
  cases i with
  | btna => exact .inl rfl
  | btnb => exact .inr rfl
  | _ => cases h

/-- While debouncing, only the expiry and reset end it (43_channel_selector.md R183). -/
theorem still_debouncing (h : Transition i s t) (busy : s.debState = .debouncing) (hdbt : i ≠ .dbt) (hrst : i ≠ .rst) :
    t.debState = .debouncing ∧ t.debCand = s.debCand ∧ .debStart ∉ t.outputs := by
  cases h with
  | reset => exact absurd rfl hrst
  | expiry | expiryIdle => exact absurd rfl hdbt
  | edgeA _ idle | edgeB _ idle => exact absurd (idle.symm.trans busy) nofun
  | refresh => exact ⟨busy, rfl, by simp [refreshed]⟩
  | _ => exact ⟨busy, rfl, by simp⟩

/-- Settles O33. -/
theorem edgeWhileDebouncingIsIgnored : Obligations.EdgeWhileDebouncingIsIgnored := by
  refine ⟨fun i s hbutton busy => ?_, fun i s t busy h idle => ?_⟩
  · obtain ⟨-, ignored⟩ := buttonEdgeStartsADebounce
    rcases eq_btna_or_btnb_of_buttonEdge hbutton with rfl | rfl
    · exact (ignored s busy).1
    · exact (ignored s busy).2
  · by_contra hother
    obtain ⟨hdbt, hrst⟩ := not_or.1 hother
    obtain ⟨still, -⟩ := still_debouncing (transition_of_exec h) busy hdbt hrst
    exact absurd (still.symm.trans idle) nofun

/-- Settles O34. -/
theorem debounceExpiryPostsTheCandidate : Obligations.DebounceExpiryPostsTheCandidate :=
  fun s busy => exec_of_transition (.expiry s busy)

/-- An edge in `Idle`, on either line (43_channel_selector.md R181, R182). -/
theorem exec_edge_idle (hbutton : line.agent = .buttonEdge) (idle : s.debState = .idle) :
    exec line s = .next { s with debState := .debouncing, debCand := edgeLine line, outputs := [.debStart] } := by
  rcases eq_btna_or_btnb_of_buttonEdge hbutton with rfl | rfl
  · exact exec_of_transition (.edgeA s idle)
  · exact exec_of_transition (.edgeB s idle)

/-- A run without expiry and reset stays in `Debouncing` with its candidate, and does not arm the timer. -/
theorem still_debouncing_run (busy : s.debState = .debouncing) (hdbt : .dbt ∉ es) (hrst : .rst ∉ es)
    (run : runEvents es s = .next t) :
    t.debState = .debouncing ∧ t.debCand = s.debCand ∧ .debStart ∉ runOutputs es s := by
  induction es generalizing s with
  | nil => exact next_injective run ▸ ⟨busy, rfl, List.not_mem_nil⟩
  | cons i es ih =>
    obtain ⟨u, hu, hrest⟩ := runEvents_cons_next run
    obtain ⟨hdbt, hdbts⟩ := not_or.1 (mt List.mem_cons.2 hdbt)
    obtain ⟨hrst, hrsts⟩ := not_or.1 (mt List.mem_cons.2 hrst)
    obtain ⟨ubusy, ucand, uouts⟩ := still_debouncing (transition_of_exec hu) busy (Ne.symm hdbt) (Ne.symm hrst)
    obtain ⟨tbusy, tcand, touts⟩ := ih ubusy hdbts hrsts hrest
    refine ⟨tbusy, tcand.trans ucand, ?_⟩
    rw [runOutputs_cons hu, List.mem_append]
    exact not_or.2 ⟨uouts, touts⟩

theorem runOutputs_append {fs : List Instr} (run : runEvents es s = .next t) :
    runOutputs (es ++ fs) s = runOutputs es s ++ runOutputs fs t := by
  induction es generalizing s with
  | nil => exact next_injective run ▸ rfl
  | cons i es ih =>
    obtain ⟨u, hu, hrest⟩ := runEvents_cons_next run
    rw [List.cons_append, runOutputs_cons hu, runOutputs_cons hu, ih hrest, List.append_assoc]

/-- Settles O36: the edge arms the timer once, the events between keep the candidate, the expiry posts it. -/
theorem edgeThenExpiryPostsThatLine : Obligations.EdgeThenExpiryPostsThatLine := by
  intro line es s t hbutton idle hdbt hrst run
  obtain ⟨u, hu, hrest⟩ := runEvents_cons_next run
  obtain ⟨v, hv, hlast⟩ := runEvents_append_next hrest
  obtain ⟨w, hw, hend⟩ := runEvents_cons_next hlast
  cases next_injective hend
  cases next_injective ((exec_edge_idle hbutton idle).symm.trans hu)
  obtain ⟨vbusy, vcand, vouts⟩ := still_debouncing_run rfl hdbt hrst hv
  cases next_injective ((debounceExpiryPostsTheCandidate v vbusy).symm.trans hw)
  refine ⟨rfl, rfl, vcand, ?_, debounceExpiryWhileIdleIsANoOp _ rfl⟩
  rw [List.cons_append, runOutputs_cons hu, runOutputs_append hv, runOutputs_cons hw]
  simp [runOutputs, List.count_eq_zero_of_not_mem vouts]

/-- A step that neither arms the timer nor is its expiry, and leaves `deb_state`, leaves the timer faithful to it. -/
theorem faithful_unaffected {running : Bool} (faithful : running = true ↔ s.debState = .debouncing) (hdbt : i ≠ .dbt)
    (houts : .debStart ∉ t.outputs) (hdeb : t.debState = s.debState) :
    timerAfter i t.outputs running = true ↔ t.debState = .debouncing := by
  have timer : timerAfter i t.outputs running = running := by simp [timerAfter, hdbt, houts]
  rw [timer, hdeb, faithful]

/-- Settles O37: an edge in `Idle` arms the timer and starts the debounce, an expiry stops the one and ends the other,
and every other event leaves both. -/
theorem faithfulTimerRunsWhileDebouncing : Obligations.FaithfulTimerRunsWhileDebouncing := by
  intro i s t running faithful hrst _ h
  cases transition_of_exec h with
  | reset => exact absurd rfl hrst
  | edgeA | edgeB => simp [timerAfter]
  | expiry => simp [timerAfter]
  | expiryIdle _ idle => simp [timerAfter, idle]
  | refresh => exact faithful_unaffected faithful nofun (by simp [refreshed]) rfl
  | _ => exact faithful_unaffected faithful nofun (by simp) rfl

end Sys2Proof.Proofs

/-!
PROOF. The multiplexer (44_display.md section 3): only the tick and reset write its registers and none but the tick
reads them; every step's recorded pairs are break-before-make; successive ticks alternate.
-/

namespace Sys2Proof.Proofs

open Sys2Proof Sys2Proof.Machine Sys2Proof.Safety

variable {i : Instr} {es : List Instr} {s t : State} {tens units : Bcd} {p : BitVec 2 × Bcd}

/-! Break before make (44_display.md R211), one output change at a time. -/

theorem breakBeforeMake_same (h : p.1 ≠ 0b11#2) : breakBeforeMake tens units p p :=
  ⟨h, fun e => absurd rfl e, fun e => absurd rfl e, fun e => absurd rfl e⟩

theorem breakBeforeMake_off (p : BitVec 2 × Bcd) : breakBeforeMake tens units p (0b00#2, p.2) :=
  ⟨by simp, fun _ e => absurd e (by simp), fun _ e => absurd e (by simp), fun e => absurd rfl e⟩

theorem breakBeforeMake_digit (d d' : Bcd) : breakBeforeMake tens units (0b00#2, d) (0b00#2, d') :=
  ⟨by simp, fun e => absurd rfl e, fun e => absurd rfl e, fun _ => ⟨rfl, rfl⟩⟩

theorem breakBeforeMake_on_tens (tens units : Bcd) : breakBeforeMake tens units (0b00#2, tens) (0b01#2, tens) :=
  ⟨by simp, fun _ _ => ⟨rfl, rfl⟩, fun _ e => absurd e (by simp), fun e => absurd rfl e⟩

theorem breakBeforeMake_on_units (tens units : Bcd) : breakBeforeMake tens units (0b00#2, units) (0b10#2, units) :=
  ⟨by simp, fun _ e => absurd e (by simp), fun _ _ => ⟨rfl, rfl⟩, fun e => absurd rfl e⟩

/-- Settles O41: a tick switches off, changes the digit and switches the new position on; reset switches off and then
changes the digit; every other event leaves the pair as it is. -/
theorem outputsBreakBeforeMake : Obligations.OutputsBreakBeforeMake := by
  intro i s t hone h
  have same : breakBeforeMake s.digTens s.digUnits (s.digitEn, s.segBcd) (s.digitEn, s.segBcd) :=
    breakBeforeMake_same hone
  have off : breakBeforeMake s.digTens s.digUnits (s.digitEn, s.segBcd) (0b00#2, s.segBcd) := breakBeforeMake_off _
  cases transition_of_exec h with
  | reset =>
    exact ⟨.cons_cons same (.cons_cons off (.cons_cons (breakBeforeMake_digit _ _) (.singleton _))), rfl⟩
  | tickUnits =>
    exact ⟨.cons_cons off (.cons_cons (breakBeforeMake_digit _ _)
      (.cons_cons (breakBeforeMake_on_units _ _) (.singleton _))), rfl⟩
  | tickTens =>
    exact ⟨.cons_cons off (.cons_cons (breakBeforeMake_digit _ _)
      (.cons_cons (breakBeforeMake_on_tens _ _) (.singleton _))), rfl⟩
  | refresh => exact ⟨.cons_cons same (.singleton _), rfl⟩
  | edgeA | edgeB => exact ⟨.cons_cons same (.singleton _), rfl⟩
  | _ => exact ⟨.singleton _, rfl⟩

/-! Successive ticks. -/

/-- A tick moves to the other index and turns that position on. -/
theorem tick_position (h : exec .muxt s = .next t) :
    (s.muxIdx = 0#1 ∧ t.muxIdx = 1#1 ∧ t.digitEn = 0b10#2 ∧ t.segBcd = s.digUnits) ∨
      (s.muxIdx = 1#1 ∧ t.muxIdx = 0#1 ∧ t.digitEn = 0b01#2 ∧ t.segBcd = s.digTens) := by
  cases transition_of_exec h with
  | tickUnits _ index => exact .inl ⟨index, rfl, rfl, rfl⟩
  | tickTens _ index => exact .inr ⟨index, rfl, rfl, rfl⟩

/-- The multiplex timer has one event. -/
theorem eq_muxt_of_multiplexTimer (h : i.agent = .multiplexTimer) : i = .muxt := by
  cases i with
  | muxt => rfl
  | _ => cases h

theorem sameMultiplexer_run (hmuxt : .muxt ∉ es) (hrst : .rst ∉ es) (run : runEvents es s = .next t) :
    sameMultiplexer s t := by
  refine runEvents_induction (P := sameMultiplexer s) (fun i hi u v hsu h => ?_) ⟨rfl, rfl, rfl⟩ run
  obtain ⟨hidx, hen, hseg⟩ := sameMultiplexer_of_transition (transition_of_exec h) (fun e => hrst (e ▸ hi))
    (fun e => hmuxt (eq_muxt_of_multiplexTimer e ▸ hi))
  exact ⟨hidx.trans hsu.1, hen.trans hsu.2.1, hseg.trans hsu.2.2⟩

/-- Settles O42: between the ticks the registers stay, so the second tick starts where the first one ended. -/
theorem ticksAlternatePositions : Obligations.TicksAlternatePositions := by
  intro es s t u v htick hmuxt hrst run htick'
  obtain ⟨hidx, hen, -⟩ := sameMultiplexer_run hmuxt hrst run
  rcases tick_position htick with ⟨hs, ht, hten, -⟩ | ⟨hs, ht, hten, -⟩
  · obtain ⟨-, hv, hven, -⟩ := (tick_position htick').resolve_left fun second => by simp [hidx, ht] at second
    exact ⟨by simp [hs, ht], hv.trans hs.symm, hen, .inr ⟨hten, hven⟩⟩
  · obtain ⟨-, hv, hven, -⟩ := (tick_position htick').resolve_right fun second => by simp [hidx, ht] at second
    exact ⟨by simp [hs, ht], hv.trans hs.symm, hen, .inl ⟨hten, hven⟩⟩

/-! Noninterference. -/

/-- The state with other values in the multiplexer's registers. -/
abbrev withMultiplexer (x : BitVec 1) (e : BitVec 2) (d : Bcd) (s : State) : State :=
  { s with muxIdx := x, digitEn := e, segBcd := d }

/-- No guard of a transition but the tick's reads the multiplexer's registers, and none of its writes depends on them or
reaches them. -/
theorem transition_withMultiplexer (x : BitVec 1) (e : BitVec 2) (d : Bcd) (hmuxt : i ≠ .muxt) (hrst : i ≠ .rst)
    (h : Transition i s t) : Transition i (withMultiplexer x e d s) (withMultiplexer x e d t) := by
  cases h with
  | reset => exact absurd rfl hrst
  | tickUnits | tickTens => exact absurd rfl hmuxt
  | desync b _ start => exact .desync b (withMultiplexer x e d s) start
  | store b _ start open31 => exact .store b (withMultiplexer x e d s) start open31
  | publish b _ valid => exact .publish b (withMultiplexer x e d s) valid
  | reject b _ full start sentinel mismatch =>
    exact .reject b (withMultiplexer x e d s) full start sentinel mismatch
  | edgeA _ idle => exact .edgeA (withMultiplexer x e d s) idle
  | edgeB _ idle => exact .edgeB (withMultiplexer x e d s) idle
  | ignoredA _ busy => exact .ignoredA (withMultiplexer x e d s) busy
  | ignoredB _ busy => exact .ignoredB (withMultiplexer x e d s) busy
  | expiry _ busy => exact .expiry (withMultiplexer x e d s) busy
  | expiryIdle _ idle => exact .expiryIdle (withMultiplexer x e d s) idle
  | record _ phase ready => exact .record (withMultiplexer x e d s) phase ready
  | noFrame _ phase empty => exact .noFrame (withMultiplexer x e d s) phase empty
  | refresh _ phase sel a hsel ha => exact .refresh (withMultiplexer x e d s) phase sel a hsel ha

/-- Settles O43. -/
theorem onlyTheTickTouchesTheMultiplexer : Obligations.OnlyTheTickTouchesTheMultiplexer :=
  fun _ _ _ x e d hmuxt hrst h => exec_of_transition (transition_withMultiplexer x e d hmuxt hrst (transition_of_exec h))

/-- Settles O39: the 128 values of the operand. -/
theorem doubleDabbleComputesTheDigits : Obligations.DoubleDabbleComputesTheDigits := by
  unfold Obligations.DoubleDabbleComputesTheDigits
  decide

end Sys2Proof.Proofs

/-!
PROOF. A foreground pass (45_foreground.md section 2): `FGF` records before `FGS` refreshes, so the pass shows the new
average.
-/

namespace Sys2Proof.Proofs

open Sys2Proof Sys2Proof.Machine Sys2Proof.Safety

/-- Settles O45: the `record` transition and then the `refresh` transition. -/
theorem passShowsTheNewChannelsNewAverage : Obligations.PassShowsTheNewChannelsNewAverage := by
  intro s c ring a phase ready pending hc hring ha
  have recorded := exec_of_transition (.record s phase ready)
  generalize hu : ({ recordFrame s.frameRd s with frameReady := false, fgPhase := 1#1, outputs := [] } : State) = u
    at recorded
  have average : (u.avg.get c).toNat = a := by
    subst hu
    obtain ⟨hist, -, avg⟩ := recordFrame_channel s.frameRd s c
    rw [ha, hring]
    show ((recordFrame s.frameRd s).avg.get c).toNat = _
    rw [avg, hist, toNat_ringAverage]
    rfl
  have selected : s.selEvent = if u.selPending = true then u.selEvent else u.selection := by
    subst hu
    exact (if_pos pending).symm
  have shown := exec_of_transition (.refresh u (hu ▸ rfl) s.selEvent a selected (hc ▸ average.symm))
  refine ⟨refreshed s.selEvent a u, by simp only [passEvents, runEvents, recorded, shown], rfl, hu ▸ rfl, rfl, average,
    refreshed_shows s.selEvent a u, rfl, rfl, rfl⟩

end Sys2Proof.Proofs

/-!
PROOF. Fair runs (70_reset_and_hazards.md R299): under fairness each of the two foreground events comes at or after every
point, what waits for it lasts until then, and so do the ticks' effects on the two positions.
-/

namespace Sys2Proof.Proofs

open Sys2Proof Sys2Proof.Machine Sys2Proof.Safety

variable {i e : Instr} {ev : Nat → Instr} {st : Nat → State} {s t : State} {n : Nat}

/-! The foreground's turns. -/

/-- A foreground event that takes place is the foreground's turn. -/
theorem eq_foregroundTurn_of_takes (h : takes i s t) (hfg : i.agent = .foreground) : i = foregroundTurn s := by
  obtain ⟨hfgf, hfgs⟩ := (takes_phaseAfter h).1
  rcases eq_fgf_or_fgs_of_foreground hfg with rfl | rfl
  · exact (foregroundTurn_phase_zero (hfgf rfl)).symm
  · exact (foregroundTurn_phase_one (hfgs rfl)).symm

/-- After a foreground event it is the other one's turn. -/
theorem foregroundTurn_ne_of_takes (h : takes i s t) (hfg : i.agent = .foreground) : foregroundTurn t ≠ i := by
  have after := (takes_phaseAfter h).2
  rcases eq_fgf_or_fgs_of_foreground hfg with rfl | rfl
  · rw [foregroundTurn_phase_one after]; nofun
  · rw [foregroundTurn_phase_zero after]; nofun

/-- Under fairness the foreground event whose turn it is comes. -/
theorem turn_is_taken (run : InfiniteRun ev st) (fair : ForegroundFair ev) (hrst : ∀ m, n ≤ m → ev m ≠ .rst) :
    ∃ m, n ≤ m ∧ ev m = foregroundTurn (st n) := by
  obtain ⟨m, hm, hfg, hbefore⟩ := exists_first (fair n)
  have phase : (st m).fgPhase = (st n).fgPhase := by
    refine lasts (Q := fun k => (st k).fgPhase = (st n).fgPhase) rfl (fun k hk hkm ih => ?_) hm
    obtain ⟨-, -, -, keeps⟩ := takes_phase (run k)
    exact (keeps (hrst k hk) (hbefore k hk hkm)).trans ih
  refine ⟨m, hm, ?_⟩
  rw [eq_foregroundTurn_of_takes (run m) hfg, foregroundTurn, foregroundTurn, phase]

/-- Under fairness each foreground event comes: at its turn, or at the turn after the other's. -/
theorem foreground_event_comes (run : InfiniteRun ev st) (fair : ForegroundFair ev) (hrst : ∀ m, n ≤ m → ev m ≠ .rst)
    (he : e.agent = .foreground) : ∃ m, n ≤ m ∧ ev m = e := by
  obtain ⟨m, hm, hturn⟩ := turn_is_taken run fair hrst
  by_cases hme : ev m = e
  · exact ⟨m, hm, hme⟩
  have hfg : (ev m).agent = .foreground := by
    rw [hturn, foregroundTurn]
    split <;> rfl
  obtain ⟨k, hk, hnext⟩ := turn_is_taken (n := m + 1) run fair fun k hk => hrst k (by omega)
  have other : ev k ≠ ev m := hnext ▸ foregroundTurn_ne_of_takes (run m) hfg
  have hkfg : (ev k).agent = .foreground := by
    rw [hnext, foregroundTurn]
    split <;> rfl
  have hk' := eq_fgf_or_fgs_of_foreground hkfg
  have he' := eq_fgf_or_fgs_of_foreground he
  refine ⟨k, by omega, ?_⟩
  rcases eq_fgf_or_fgs_of_foreground hfg with hm' | hm' <;> rw [hm'] at hme other
  · exact (hk'.resolve_left other).trans (he'.resolve_left (Ne.symm hme)).symm
  · exact (hk'.resolve_right other).trans (he'.resolve_right (Ne.symm hme)).symm

/-! A ready frame. -/

/-- `FGF` with a frame ready, whatever is still to come: the frame is recorded and taken (45_foreground.md R228). -/
theorem takes_fgf_records (h : takes .fgf s t) (ready : s.frameReady = true) :
    t.frameReady = false ∧ ∀ c, (∀ j : BitVec 2, ringRead (t.hist.get c) j =
        if j = s.histPos.get c then s.frameRd.get c else ringRead (s.hist.get c) j) ∧
      t.avg.get c = ringAverage (t.hist.get c) := by
  obtain ⟨q, k, h⟩ := h
  cases transition_of_exec h with
  | noFrame _ _ empty => exact absurd (empty.symm.trans ready) nofun
  | record =>
    refine ⟨rfl, fun c => ⟨?_, avg_recordFrame s.frameRd _ c⟩⟩
    obtain ⟨entries, -⟩ := recordFrame_channel_entries s.frameRd { s with schedule := q, arrivals := k } c
    exact entries

/-- Until the next `FGF` a ready frame stays ready, and the store is as it was. -/
theorem ready_frame_waits {m : Nat} (run : InfiniteRun ev st) (hrst : ∀ k, n ≤ k → ev k ≠ .rst) (hm : n ≤ m)
    (hbefore : ∀ k, n ≤ k → k < m → ev k ≠ .fgf) (ready : (st n).frameReady = true) :
    (st m).frameReady = true ∧ sameStore (st n) (st m) := by
  refine lasts (Q := fun k => (st k).frameReady = true ∧ sameStore (st n) (st k)) ⟨ready, rfl, rfl, rfl⟩
    (fun k hk hkm ⟨hready, hstore⟩ => ?_) hm
  obtain ⟨q, l, h⟩ := run k
  have kept := sameStore_of_transition (transition_of_exec h) (hrst k hk) (hbefore k hk hkm)
  exact ⟨frameReady_lasts h (hrst k hk) (hbefore k hk hkm) hready, sameStore_trans hstore kept⟩

/-- The mailbox keeps its readings while no frame validates. -/
theorem readings_wait {m : Nat} (run : InfiniteRun ev st) (hrst : ∀ k, n ≤ k → ev k ≠ .rst) (hm : n ≤ m)
    (none : ∀ k b, n ≤ k → k < m → ev k = .rxb b → ¬validates b (st k)) : (st m).frameRd = (st n).frameRd := by
  refine lasts (Q := fun k => (st k).frameRd = (st n).frameRd) rfl (fun k hk hkm ih => ?_) hm
  obtain ⟨q, l, h⟩ := run k
  refine Eq.trans (by_contra fun changed => ?_) ih
  obtain ⟨b, hb, valid, -⟩ := onlyValidFramesReachTheMailbox _ _ _ h (hrst k hk) changed
  exact none k b hk hkm hb valid

/-- Settles O55. -/
theorem fairForegroundAveragesAReadyFrame : Obligations.FairForegroundAveragesAReadyFrame := by
  intro ev st n run fair hrst ready
  obtain ⟨m, hm, hfgf, hbefore⟩ := exists_first (foreground_event_comes run fair hrst (e := .fgf) rfl)
  obtain ⟨hready, hstore⟩ := ready_frame_waits run hrst hm hbefore ready
  obtain ⟨taken, recorded⟩ := takes_fgf_records (hfgf ▸ run m) hready
  exact ⟨m, hm, hfgf, hbefore, hready, taken, hstore, recorded, readings_wait run hrst hm⟩

/-! A pending press. -/

/-- `FGS` with a press pending, whatever is still to come: the press is applied and shown (45_foreground.md R230). -/
theorem takes_fgs_applies (h : takes .fgs s t) (pending : s.selPending = true) :
    t.selection = s.selEvent ∧ t.selPending = false ∧
      10 * t.digTens.toNat + t.digUnits.toNat = min (s.avg.get (selectedChannel s.selEvent)).toNat 99 := by
  obtain ⟨q, k, h⟩ := h
  cases transition_of_exec h with
  | refresh _ _ sel a hsel ha =>
    obtain rfl : sel = s.selEvent := hsel.trans (if_pos pending)
    exact ⟨rfl, rfl, (refreshed_shows _ a _).trans (by rw [ha])⟩

/-- Until the next `FGS` a pending press stays pending. -/
theorem pending_press_waits {m : Nat} (run : InfiniteRun ev st) (hrst : ∀ k, n ≤ k → ev k ≠ .rst) (hm : n ≤ m)
    (hbefore : ∀ k, n ≤ k → k < m → ev k ≠ .fgs) (pending : (st n).selPending = true) : (st m).selPending = true := by
  refine lasts (Q := fun k => (st k).selPending = true) pending (fun k hk hkm ih => ?_) hm
  obtain ⟨q, l, h⟩ := run k
  exact selPending_lasts h (hrst k hk) (hbefore k hk hkm) ih

/-- The debounce timer has one event. -/
theorem eq_dbt_of_debounceTimer (h : i.agent = .debounceTimer) : i = .dbt := by
  cases i with
  | dbt => rfl
  | _ => cases h

/-- The pending press is the same one while no debounce completes. -/
theorem press_waits {m : Nat} (run : InfiniteRun ev st) (hrst : ∀ k, n ≤ k → ev k ≠ .rst) (hm : n ≤ m)
    (none : ∀ k, n ≤ k → k < m → ev k ≠ .dbt) : (st m).selEvent = (st n).selEvent := by
  refine lasts (Q := fun k => (st k).selEvent = (st n).selEvent) rfl (fun k hk hkm ih => ?_) hm
  obtain ⟨q, l, h⟩ := run k
  exact (selEvent_of_transition (transition_of_exec h) (hrst k hk)
    (mt eq_dbt_of_debounceTimer (none k hk hkm))).trans ih

/-- Settles O56. -/
theorem fairForegroundAppliesAPendingPress : Obligations.FairForegroundAppliesAPendingPress := by
  intro ev st n run fair hrst pending
  obtain ⟨m, hm, hfgs, hbefore⟩ := exists_first (foreground_event_comes run fair hrst (e := .fgs) rfl)
  have hpending := pending_press_waits run hrst hm hbefore pending
  obtain ⟨applied, cleared, shown⟩ := takes_fgs_applies (hfgs ▸ run m) hpending
  exact ⟨m, hm, hfgs, hbefore, applied, cleared, shown, press_waits run hrst hm⟩

/-! The ticks. -/

/-- A tick, whatever is still to come, moves to the other index and renders its digit at its position. -/
theorem takes_tick_renders (h : takes .muxt s t) :
    t.muxIdx ≠ s.muxIdx ∧ t.digitEn = (if t.muxIdx = 0#1 then 0b01#2 else 0b10#2) ∧
      t.segBcd = if t.muxIdx = 0#1 then s.digTens else s.digUnits := by
  obtain ⟨q, k, h⟩ := h
  rcases tick_position h with ⟨hs, ht, hen, hseg⟩ | ⟨hs, ht, hen, hseg⟩
  · exact ⟨fun e => absurd (ht.symm.trans (e.trans hs)) (by decide), by simp [ht, hen], by simp [ht, hseg]⟩
  · exact ⟨fun e => absurd (ht.symm.trans (e.trans hs)) (by decide), by simp [ht, hen], by simp [ht, hseg]⟩

/-- Between ticks the index stays. -/
theorem index_waits {m : Nat} (run : InfiniteRun ev st) (hrst : ∀ k, n ≤ k → ev k ≠ .rst) (hm : n ≤ m)
    (none : ∀ k, n ≤ k → k < m → ev k ≠ .muxt) : (st m).muxIdx = (st n).muxIdx := by
  refine lasts (Q := fun k => (st k).muxIdx = (st n).muxIdx) rfl (fun k hk hkm ih => ?_) hm
  obtain ⟨q, l, h⟩ := run k
  obtain ⟨hidx, -⟩ := sameMultiplexer_of_transition (transition_of_exec h) (hrst k hk)
    (mt eq_muxt_of_multiplexTimer (none k hk hkm))
  exact hidx.trans ih

/-- There are two indexes. -/
theorem index_eq_of_ne : ∀ x y z : BitVec 1, x ≠ y → z ≠ y → x = z := by decide

/-- Under fair ticks a tick leads to each index: the next one, or the one after it. -/
theorem tick_to_index_comes (run : InfiniteRun ev st) (fair : TickFair ev) (hrst : ∀ k, n ≤ k → ev k ≠ .rst)
    (x : BitVec 1) : ∃ m, n ≤ m ∧ ev m = .muxt ∧ (st (m + 1)).muxIdx = x := by
  obtain ⟨m, hm, htick⟩ := fair n
  by_cases hx : (st (m + 1)).muxIdx = x
  · exact ⟨m, hm, htick, hx⟩
  obtain ⟨k, hk, htick', hbetween⟩ := exists_first (fair (m + 1))
  have stays := index_waits run (fun l hl => hrst l (by omega)) hk hbetween
  obtain ⟨moves, -⟩ := takes_tick_renders (htick' ▸ run k)
  rw [stays] at moves
  exact ⟨k, by omega, htick', index_eq_of_ne _ _ _ moves (Ne.symm hx)⟩

/-- Settles O57. -/
theorem fairTicksRenderBothDigits : Obligations.FairTicksRenderBothDigits := by
  intro ev st n x run fair hrst
  obtain ⟨m, hm, htick, rfl⟩ := tick_to_index_comes run fair hrst x
  obtain ⟨-, enabled, digit⟩ := takes_tick_renders (htick ▸ run m)
  exact ⟨m, hm, htick, rfl, enabled, digit⟩

end Sys2Proof.Proofs

/-!
PROOF. Steps of different agents commute (20_memory.md section 6, R83): a step is not changed by variables that it
neither reads nor writes, so each of the two may be moved past the other, and the exceptions are where one reads what the
other writes.
-/

namespace Sys2Proof.Proofs

open Sys2Proof Sys2Proof.Machine Sys2Proof.Safety

variable {i j : Instr} {b : Byte} {s t u v : State}

/-- A step begins with an empty output list, whatever the one before it emitted. -/
theorem exec_anyOutputs (i : Instr) (o : List OutputChange) (s : State) : exec i { s with outputs := o } = exec i s := by
  cases i <;> rfl

/-! Steps among other values of variables that they do not use. -/

/-- The state with another mailbox. -/
abbrev withMailbox (y : Bool) (r : PerChannel Reading) (s : State) : State := { s with frameReady := y, frameRd := r }

theorem transition_withMailbox (y : Bool) (r : PerChannel Reading) (hserial : i.agent ≠ .serial) (hfgf : i ≠ .fgf)
    (hrst : i ≠ .rst) (h : Transition i s t) : Transition i (withMailbox y r s) (withMailbox y r t) := by
  cases h with
  | reset => exact absurd rfl hrst
  | desync | store | publish | reject => exact absurd rfl hserial
  | record | noFrame => exact absurd rfl hfgf
  | edgeA _ idle => exact .edgeA (withMailbox y r s) idle
  | edgeB _ idle => exact .edgeB (withMailbox y r s) idle
  | ignoredA _ busy => exact .ignoredA (withMailbox y r s) busy
  | ignoredB _ busy => exact .ignoredB (withMailbox y r s) busy
  | expiry _ busy => exact .expiry (withMailbox y r s) busy
  | expiryIdle _ idle => exact .expiryIdle (withMailbox y r s) idle
  | tickUnits _ index => exact .tickUnits (withMailbox y r s) index
  | tickTens _ index => exact .tickTens (withMailbox y r s) index
  | refresh _ phase sel a hsel ha => exact .refresh (withMailbox y r s) phase sel a hsel ha

/-- The state with another debounce machine. -/
abbrev withDebounce (d : DebState) (c : Chan) (s : State) : State := { s with debState := d, debCand := c }

theorem transition_foreground_withDebounce (d : DebState) (c : Chan) (hfg : i.agent = .foreground)
    (h : Transition i s t) : Transition i (withDebounce d c s) (withDebounce d c t) := by
  cases h with
  | record _ phase ready => exact .record (withDebounce d c s) phase ready
  | noFrame _ phase empty => exact .noFrame (withDebounce d c s) phase empty
  | refresh _ phase sel a hsel ha => exact .refresh (withDebounce d c s) phase sel a hsel ha
  | _ => cases hfg

/-- The state with another pending selection event. -/
abbrev withSelEvent (y : Bool) (c : Chan) (s : State) : State := { s with selPending := y, selEvent := c }

theorem transition_fgf_withSelEvent (y : Bool) (c : Chan) (h : Transition .fgf s t) :
    Transition .fgf (withSelEvent y c s) (withSelEvent y c t) := by
  cases h with
  | record _ phase ready => exact .record (withSelEvent y c s) phase ready
  | noFrame _ phase empty => exact .noFrame (withSelEvent y c s) phase empty

/-! Swapping two steps. -/

/-- Two events that both run in `s` run one after the other in both orders, to the same variables and with the same
output list of each. -/
def Swappable (i j : Instr) (s : State) : Prop :=
  ∀ u u', exec i s = .next u → exec j s = .next u' →
    ∃ v v', exec j u = .next v ∧ exec i u' = .next v' ∧ v' = { v with outputs := u.outputs } ∧ v.outputs = u'.outputs

theorem Swappable.symm (h : Swappable i j s) : Swappable j i s := fun u u' hu hu' => by
  obtain ⟨v, v', hv, hv', rfl, houts⟩ := h u' u hu' hu
  exact ⟨_, v, hv', hv, by rw [← houts], rfl⟩

/-- The variables of the receiver are all that an `RXB` reads, so it does the same wherever they are the same. -/
theorem exec_of_sameReceiver {t : State} (h : sameReceiver s u)
    (ht : Transition i (withReceiver s.rxBuf s.rxPos u) t) : exec i u = .next t := by
  have hu : withReceiver s.rxBuf s.rxPos u = u := by rw [withReceiver, ← h.1, ← h.2]
  exact exec_of_transition (hu ▸ ht)

theorem swappable_rxb (hserial : j.agent ≠ .serial) (hrst : j ≠ .rst) (hfgf : j = .fgf → ¬validates b s) :
    Swappable (.rxb b) j s := by
  intro u u' hu hu'
  have hj := transition_of_exec hu'
  have same := sameReceiver_of_transition hj hrst hserial
  have moved (m : Memory) (p : BitVec 5) :
      exec j { withReceiver m p s with outputs := [] } = .next (withReceiver m p u') :=
    (exec_anyOutputs j [] _).trans (exec_of_transition (transition_withReceiver m p hserial hrst hj))
  cases transition_of_exec hu with
  | desync _ _ start =>
    exact ⟨_, _, moved _ _, exec_of_sameReceiver same (.desync b (withReceiver s.rxBuf s.rxPos u') start), rfl, rfl⟩
  | store _ _ start open31 =>
    exact ⟨_, _, moved _ _, exec_of_sameReceiver same (.store b (withReceiver s.rxBuf s.rxPos u') start open31), rfl,
      rfl⟩
  | reject _ _ full start sentinel mismatch =>
    exact ⟨_, _, moved _ _,
      exec_of_sameReceiver same (.reject b (withReceiver s.rxBuf s.rxPos u') full start sentinel mismatch), rfl, rfl⟩
  | publish _ _ valid =>
    have notFgf : j ≠ .fgf := fun e => hfgf e valid
    have published := transition_withMailbox true (frameReadings s) hserial notFgf hrst
      (transition_withReceiver (closedBuffer b s) 0#5 hserial hrst hj)
    exact ⟨_, _, (exec_anyOutputs j [] _).trans (exec_of_transition published),
      exec_of_sameReceiver same (.publish b (withReceiver s.rxBuf s.rxPos u') valid), rfl, rfl⟩

/-- A tick commutes with whatever leaves the digit that it renders. -/
theorem swappable_muxt (hmuxt : j ≠ .muxt) (hrst : j ≠ .rst)
    (hdigit : ∀ u', exec j s = .next u' → nextDigit u' = nextDigit s) : Swappable .muxt j s := by
  intro u u' hu hu'
  have hj := transition_of_exec hu'
  have digit := hdigit u' hu'
  obtain ⟨hidx, -⟩ := sameMultiplexer_of_transition hj hrst (mt eq_muxt_of_multiplexTimer hmuxt)
  have moved (x : BitVec 1) (e : BitVec 2) (d : Bcd) (o : List OutputChange) :
      exec j { withMultiplexer x e d s with outputs := o } = .next (withMultiplexer x e d u') :=
    (exec_anyOutputs j o _).trans (exec_of_transition (transition_withMultiplexer x e d hmuxt hrst hj))
  cases transition_of_exec hu with
  | tickUnits _ index =>
    have units : u'.digUnits = s.digUnits := by simpa [nextDigit, hidx, index] using digit
    refine ⟨_, _, moved 1#1 0b10#2 s.digUnits _, exec_of_transition (.tickUnits u' (hidx.trans index)), ?_, rfl⟩
    rw [units]
  | tickTens _ index =>
    have tens : u'.digTens = s.digTens := by simpa [nextDigit, hidx, index] using digit
    refine ⟨_, _, moved 0#1 0b01#2 s.digTens _, exec_of_transition (.tickTens u' (hidx.trans index)), ?_, rfl⟩
    rw [tens]

/-- An edge reads and writes the debounce machine only, which the foreground does not use. -/
theorem swappable_edge_foreground (hbutton : i.agent = .buttonEdge) (hfg : j.agent = .foreground) : Swappable i j s := by
  intro u u' hu hu'
  have hj := transition_of_exec hu'
  obtain ⟨hstate, -⟩ : sameDebounce s u' := sameDebounce_of_transition hj (fun e => by simp [e, Instr.agent] at hfg)
    (fun e => by simp [e] at hfg) (fun e => by simp [e] at hfg)
  cases hd : s.debState with
  | idle =>
    cases next_injective ((exec_edge_idle hbutton hd).symm.trans hu)
    have moved := transition_foreground_withDebounce .debouncing (edgeLine i) hfg hj
    exact ⟨_, _, (exec_anyOutputs j _ (withDebounce .debouncing (edgeLine i) s)).trans (exec_of_transition moved),
      exec_edge_idle hbutton (hstate.trans hd), rfl, rfl⟩
  | debouncing =>
    obtain ⟨ignored, -⟩ := edgeWhileDebouncingIsIgnored
    cases next_injective ((ignored i s hbutton hd).symm.trans hu)
    exact ⟨_, _, (exec_anyOutputs j _ s).trans hu', ignored i u' hbutton (hstate.trans hd), rfl, rfl⟩

/-- An expiry in `Idle` does nothing; in `Debouncing` it posts the selection event, which `FGS` reads and `FGF` does
not. -/
theorem swappable_dbt_foreground (hfg : j.agent = .foreground) (hfgs : j = .fgs → s.debState ≠ .debouncing) :
    Swappable .dbt j s := by
  intro u u' hu hu'
  have hj := transition_of_exec hu'
  obtain ⟨hstate, hcand⟩ : sameDebounce s u' := sameDebounce_of_transition hj (fun e => by simp [e, Instr.agent] at hfg)
    (fun e => by simp [e] at hfg) (fun e => by simp [e] at hfg)
  cases transition_of_exec hu with
  | expiryIdle _ idle =>
    exact ⟨_, _, (exec_anyOutputs j _ s).trans hu', debounceExpiryWhileIdleIsANoOp u' (hstate.trans idle), rfl, rfl⟩
  | expiry _ busy =>
    obtain rfl : j = .fgf := (eq_fgf_or_fgs_of_foreground hfg).resolve_right fun e => hfgs e busy
    have moved := transition_fgf_withSelEvent true s.debCand
      (transition_foreground_withDebounce .idle s.debCand hfg hj)
    refine ⟨_, _, (exec_anyOutputs .fgf _ _).trans (exec_of_transition moved),
      debounceExpiryPostsTheCandidate u' (hstate.trans busy), ?_, rfl⟩
    rw [hcand]

/-! The exceptions. -/

theorem orderMatters_comm : orderMatters i j s ↔ orderMatters j i s := by
  cases i <;> cases j <;> exact Iff.rfl

/-- What changes the digit that a tick renders, among the events of the other agents, is `FGS`. -/
theorem nextDigit_of_not_orderMatters (hmuxt : j ≠ .muxt) (hrst : j ≠ .rst) (h : ¬orderMatters .muxt j s) :
    ∀ u', exec j s = .next u' → nextDigit u' = nextDigit s := by
  intro u' hu'
  by_cases hfgs : j = .fgs
  · subst hfgs
    exact by_contra fun changed => h ⟨u', hu', changed⟩
  · have hj := transition_of_exec hu'
    obtain ⟨-, ⟨htens, hunits⟩, -⟩ := sameShown_of_transition hj hrst hfgs
    obtain ⟨hidx, -⟩ := sameMultiplexer_of_transition hj hrst (mt eq_muxt_of_multiplexTimer hmuxt)
    rw [nextDigit, nextDigit, htens, hunits, hidx]

theorem swappable_serial (hserial : Agent.serial ≠ j.agent) (hj : j ≠ .rst) (h : ¬orderMatters (.rxb b) j s) :
    Swappable (.rxb b) j s :=
  swappable_rxb (Ne.symm hserial) hj (by rintro rfl; exact h)

theorem swappable_tick (htick : Agent.multiplexTimer ≠ j.agent) (hj : j ≠ .rst) (h : ¬orderMatters .muxt j s) :
    Swappable .muxt j s := by
  have hmuxt : j ≠ .muxt := by rintro rfl; exact htick rfl
  exact swappable_muxt hmuxt hj (nextDigit_of_not_orderMatters hmuxt hj h)

/-- The events of the channel selector (43_channel_selector.md). -/
abbrev IsSelectorEvent (i : Instr) : Prop := i.agent = .buttonEdge ∨ i.agent = .debounceTimer

theorem swappable_selector_foreground (hsel : IsSelectorEvent i) (hfg : j.agent = .foreground)
    (h : ¬orderMatters i j s) : Swappable i j s := by
  rcases hsel with hbutton | htimer
  · exact swappable_edge_foreground hbutton hfg
  · obtain rfl := eq_dbt_of_debounceTimer htimer
    exact swappable_dbt_foreground hfg (by rintro rfl; exact h)

/-- Events of the channel selector are of one agent, or in each other's way. -/
theorem orderMatters_of_selector (hi : IsSelectorEvent i) (hj : IsSelectorEvent j) (hagent : i.agent ≠ j.agent) :
    orderMatters i j s := by
  rcases hi with hi | hi <;> rcases hj with hj | hj
  · exact absurd (hi.trans hj.symm) hagent
  · obtain rfl := eq_dbt_of_debounceTimer hj
    rcases eq_btna_or_btnb_of_buttonEdge hi with rfl | rfl <;> trivial
  · obtain rfl := eq_dbt_of_debounceTimer hi
    rcases eq_btna_or_btnb_of_buttonEdge hj with rfl | rfl <;> trivial
  · exact absurd (hi.trans hj.symm) hagent

/-- An event that is not `RST` is the serial agent's, the tick, the channel selector's or the foreground's. -/
theorem event_cases (h : i ≠ .rst) :
    (∃ b, i = .rxb b) ∨ i = .muxt ∨ IsSelectorEvent i ∨ i.agent = .foreground := by
  cases i with
  | rst => exact absurd rfl h
  | rxb b => exact .inl ⟨b, rfl⟩
  | muxt => exact .inr (.inl rfl)
  | btna | btnb => exact .inr (.inr (.inl (.inl rfl)))
  | dbt => exact .inr (.inr (.inl (.inr rfl)))
  | fgf | fgs => exact .inr (.inr (.inr rfl))

/-- Events of different agents, neither `RST`, are swappable but for the exceptions: a byte and a tick with every other
event, the channel selector with the foreground. -/
theorem swappable_of_not_orderMatters (hagent : i.agent ≠ j.agent) (hi : i ≠ .rst) (hj : j ≠ .rst)
    (h : ¬orderMatters i j s) : Swappable i j s := by
  have h' := mt orderMatters_comm.1 h
  rcases event_cases hi with ⟨b, rfl⟩ | rfl | hsel | hfg
  · exact swappable_serial hagent hj h
  · exact swappable_tick hagent hj h
  · rcases event_cases hj with ⟨b, rfl⟩ | rfl | hsel' | hfg'
    · exact (swappable_serial (Ne.symm hagent) hi h').symm
    · exact (swappable_tick (Ne.symm hagent) hi h').symm
    · exact absurd (orderMatters_of_selector hsel hsel' hagent) h
    · exact swappable_selector_foreground hsel hfg' h
  · rcases event_cases hj with ⟨b, rfl⟩ | rfl | hsel' | hfg'
    · exact (swappable_serial (Ne.symm hagent) hi h').symm
    · exact (swappable_tick (Ne.symm hagent) hi h').symm
    · exact (swappable_selector_foreground hsel' hfg h').symm
    · exact absurd (hfg.trans hfg'.symm) hagent

/-- An event that runs after another agent's also runs before it. -/
theorem exec_before_other_agent (hagent : i.agent ≠ j.agent) (hi : i ≠ .rst) (hu : exec i s = .next u)
    (hv : exec j u = .next v) : ∃ u', exec j s = .next u' := by
  by_cases hj : j.agent = .foreground
  · have phase : u.fgPhase = s.fgPhase := samePhase_of_transition (transition_of_exec hu) hi (hj ▸ hagent)
    exact exec_next_iff_phaseAllows.2 (phase ▸ exec_next_iff_phaseAllows.1 ⟨v, hv⟩)
  · exact exec_arrival hj s

/-- Settles O49. -/
theorem independentStepsCommute : Obligations.IndependentStepsCommute := by
  intro i j s u v hagent hi hj independent hu hv
  obtain ⟨u', hu'⟩ := exec_before_other_agent hagent hi hu hv
  obtain ⟨w, v', hw, hv', hvars, houts⟩ := swappable_of_not_orderMatters hagent hi hj independent u u' hu hu'
  cases next_injective (hv.symm.trans hw)
  exact ⟨u', v', hu', hv', hvars, houts.symm⟩

end Sys2Proof.Proofs
